-- ==== Sys2Proof/Word.lean ====
section
/-! DEFINITION. The word types of the machine (spec 03 R69, R71). -/

namespace Sys2Proof

/-- A byte, the unit of every address space but T (spec 04 R95). -/
abbrev Byte := BitVec 8

/-- One lane of a vector register, or a scalar register (spec 02 R50). -/
abbrev W32 := BitVec 32

/-- A 64-bit scalar pair, a program counter, a G address (spec 02 R51). -/
abbrev W64 := BitVec 64

/-- A set of lanes: bit i is lane i (spec 01 R20). -/
abbrev Mask := BitVec 64

end Sys2Proof
end

