-- ==== Sys2Proof/Config.lean ====
section
/-! DEFINITION. What an implementation fixes and the specification does not give: constants and free values without a body,
so that no proof can rest on a value of theirs (assumption log 3). -/

namespace Sys2Proof.Config

/-- A free 32-bit word, one for each value of the state's counter freeCount (log 3). -/
opaque freeWord : Nat → W32

/-- A free byte at an address, for each value of freeCount: bytes the specification calls unspecified (log 3). -/
opaque freeByte : Nat → Nat → Byte

/-- A free choice among n things, made with freeCount: an order the specification leaves open (log 3). -/
opaque freeChoice : Nat → Nat → Nat

/-- The salt that the driver sets for a context's Stock region (spec 04 R109): how it does is not given (log 31). -/
opaque stockSalt : W32 → BitVec 256

/-- The result of a transcendental form that the model's precision does not decide: form, type and operand pattern (log 20). -/
opaque freeFloat : Nat → Nat → Nat → W64

/-- The device identity key of RSA-3072: its modulus and private exponent (spec 00 R5, 20 R355, 21 R375); the key is not given (log 21). -/
opaque identityModulus : Nat
@[inherit_doc identityModulus]
opaque identityExponent : Nat

/-- The root key of RSA-3072, whose digest the boot ROM holds: its modulus and public exponent (spec 20 R358, R359); the key is not given
(log 21). -/
opaque rootModulus : Nat
@[inherit_doc rootModulus]
opaque rootExponent : Nat

/-- The data unit of AES-256-XTS in which a 16-byte block of device memory lies, by block address, and the block's place in it: how
memory is cut into units is not given (spec 04 R117; log 5). -/
opaque xtsUnit : Nat → Nat
@[inherit_doc xtsUnit]
opaque xtsIndex : Nat → Nat

/-- Device serial, 16 bytes (spec 20 R355; log 21). -/
opaque serial : BitVec 128

/-- Firmware version (spec 20 R355; log 21). -/
opaque fwVersion : W32

/-- The identity certificate (spec 20 R355; log 21). -/
opaque certificate : List Byte

end Sys2Proof.Config
end

