-- ==== Sys2Proof/Syntax.lean ====
section
/-! DEFINITION. The instructions and device events of the Icnus Breost: one constructor of Instr for each row of the
opcode table (spec 07 R178, R179 and the steps of spec 95). -/

namespace Sys2Proof

/-- What an SA, SB or SC code names (spec 06 R158). A code the table reserves keeps its value. -/
inductive Src where
  /-- vector register, codes 0 to 255 -/
  | v (n : Fin 256)
  /-- scalar register, codes 256 to 383 -/
  | s (n : Fin 128)
  /-- inline integer constant 0 to 31, codes 384 to 415 -/
  | int (k : Fin 32)
  /-- inline integer constant k - 16, codes 416 to 431 -/
  | neg (k : Fin 16)
  /-- inline float constant, codes 432 to 439 -/
  | flt (k : Fin 8)
  /-- the lane's index, code 440 -/
  | lane
  /-- the literal, code 448 -/
  | lit
  /-- bypass latch, bit 9 set -/
  | latch (n : Fin 4)
  /-- a reserved code -/
  | rsv (code : BitVec 10)
deriving DecidableEq, Repr

/-- What a DST code names (spec 06 R161). -/
inductive Dst where
  /-- vector register, codes 0 to 255 -/
  | v (n : Fin 256)
  /-- scalar register, codes 256 to 383 -/
  | s (n : Fin 128)
  /-- predicate, codes 384 to 431 -/
  | p (n : Fin 48)
  /-- accumulator tile, codes 432 to 439 -/
  | a (n : Fin 8)
  /-- none, code 511 -/
  | none
  /-- a reserved code -/
  | rsv (code : BitVec 9)
deriving DecidableEq, Repr

/-- What follows the first word: the length of the instruction and its further fields (spec 06 R153, R157). -/
inductive Ext where
  /-- 64 bits -/
  | none
  /-- 96 bits: the literal -/
  | lit (w : W32)
  /-- 128 bits: the third source and the control word -/
  | ctl (sc : Src) (c : BitVec 54)
deriving DecidableEq, Repr

/-- The fields of every form but the loop nest (spec 06 R156, R157). In class J the fields SB and MOD hold DISP (R170). -/
structure Enc where
  /-- guard predicate number, 63 always -/
  pg : Fin 64
  /-- guard negate -/
  pn : Bool
  /-- chain bit -/
  ch : Bool
  /-- no write-back -/
  nw : Bool
  /-- uniform -/
  u : Bool
  dst : Dst
  sa : Src
  sb : Src
  /-- bits [63:52] -/
  mod : BitVec 12
  ext : Ext
deriving DecidableEq, Repr

/-- The fields of the loop-nest form (spec 06 R173). -/
structure NestEnc where
  /-- fifteen 10-bit strides -/
  stride : BitVec 150
  /-- five 12-bit extents -/
  extent : BitVec 60
  /-- A and B lie in S -/
  abs : Bool
  /-- D lies in S -/
  ds : Bool
  /-- B is one element -/
  bsc : Bool
  /-- D is read as well as written -/
  drd : Bool
  bbase : Fin 128
  abase : Fin 128
  dbase : Fin 128
  etype : BitVec 5
  eop : BitVec 6
deriving DecidableEq, Repr

/-- One constructor for each row of spec/opcode_table.json: the instruction forms with their fields, and the events of the
device. An event has no encoding; what it is about (a group, an operation, a register's value) stands in the state's
field input (log 2). -/
inductive Instr where
  /-- NOP, spec R190. -/
  | nop (e : Enc)
  /-- EXIT, spec R191. -/
  | exit (e : Enc)
  /-- BRA, spec R193. -/
  | bra (e : Enc)
  /-- BRZ, spec R193. -/
  | brz (e : Enc)
  /-- BRNZ, spec R193. -/
  | brnz (e : Enc)
  /-- CALL, spec R193. -/
  | call (e : Enc)
  /-- CALLI, spec R193. -/
  | calli (e : Enc)
  /-- RET, spec R193. -/
  | ret (e : Enc)
  /-- JMPI, spec R193. -/
  | jmpi (e : Enc)
  /-- SKIPZ, spec R194. -/
  | skipz (e : Enc)
  /-- DIVB, spec R27. -/
  | divb (e : Enc)
  /-- JOIN, spec R28. -/
  | join (e : Enc)
  /-- YIELD, spec R29. -/
  | yield (e : Enc)
  /-- BAR, spec R196. -/
  | bar (e : Enc)
  /-- BARA, spec R196. -/
  | bara (e : Enc)
  /-- BARW, spec R196. -/
  | barw (e : Enc)
  /-- SLEEP, spec R198. -/
  | sleep (e : Enc)
  /-- PRIO, spec R199. -/
  | prio (e : Enc)
  /-- GETID, spec R200. -/
  | getid (e : Enc)
  /-- CSRR, spec R201. -/
  | csrr (e : Enc)
  /-- CSRW, spec R201. -/
  | csrw (e : Enc)
  /-- CSRX.swap, spec R201. -/
  | csrxSwap (e : Enc)
  /-- CSRX.set, spec R201. -/
  | csrxSet (e : Enc)
  /-- CSRX.clear, spec R201. -/
  | csrxClear (e : Enc)
  /-- LPCR, spec R202. -/
  | lpcr (e : Enc)
  /-- TRAP, spec R284. -/
  | trap (e : Enc)
  /-- SVC, spec R284. -/
  | svc (e : Enc)
  /-- ERET, spec R285. -/
  | eret (e : Enc)
  /-- MARK, spec R286. -/
  | mark (e : Enc)
  /-- TSRD, spec R287. -/
  | tsrd (e : Enc)
  /-- SMOV, spec R203. -/
  | smov (e : Enc)
  /-- SADD, spec R203. -/
  | sadd (e : Enc)
  /-- SSUB, spec R203. -/
  | ssub (e : Enc)
  /-- SMUL, spec R203. -/
  | smul (e : Enc)
  /-- SMULH, spec R203. -/
  | smulh (e : Enc)
  /-- SDIV, spec R203. -/
  | sdiv (e : Enc)
  /-- SREM, spec R203. -/
  | srem (e : Enc)
  /-- SAND, spec R203. -/
  | sand (e : Enc)
  /-- SOR, spec R203. -/
  | sor (e : Enc)
  /-- SXOR, spec R203. -/
  | sxor (e : Enc)
  /-- SSHL, spec R203. -/
  | sshl (e : Enc)
  /-- SSHR, spec R203. -/
  | sshr (e : Enc)
  /-- SSAR, spec R203. -/
  | ssar (e : Enc)
  /-- SMIN, spec R203. -/
  | smin (e : Enc)
  /-- SMAX, spec R203. -/
  | smax (e : Enc)
  /-- SCMP, spec R205. -/
  | scmp (e : Enc)
  /-- SSEL, spec R203. -/
  | ssel (e : Enc)
  /-- SBFE, spec R204. -/
  | sbfe (e : Enc)
  /-- SBFI, spec R204. -/
  | sbfi (e : Enc)
  /-- SPOPC, spec R203. -/
  | spopc (e : Enc)
  /-- SCLZ, spec R203. -/
  | sclz (e : Enc)
  /-- MAND, spec R206. -/
  | mand (e : Enc)
  /-- MOR, spec R206. -/
  | mor (e : Enc)
  /-- MXOR, spec R206. -/
  | mxor (e : Enc)
  /-- MANDN, spec R206. -/
  | mandn (e : Enc)
  /-- MPOPC, spec R206. -/
  | mpopc (e : Enc)
  /-- MFFS, spec R206. -/
  | mffs (e : Enc)
  /-- MBIT, spec R206. -/
  | mbit (e : Enc)
  /-- PAND, spec R207. -/
  | pand (e : Enc)
  /-- POR, spec R207. -/
  | por (e : Enc)
  /-- PXOR, spec R207. -/
  | pxor (e : Enc)
  /-- PNOT, spec R207. -/
  | pnot (e : Enc)
  /-- PMOV, spec R207. -/
  | pmov (e : Enc)
  /-- PTOM, spec R208. -/
  | ptom (e : Enc)
  /-- MTOP, spec R208. -/
  | mtop (e : Enc)
  /-- PANY, spec R208. -/
  | pany (e : Enc)
  /-- PALL, spec R208. -/
  | pall (e : Enc)
  /-- VMOV, spec R214. -/
  | vmov (e : Enc)
  /-- VADD, spec R214. -/
  | vadd (e : Enc)
  /-- VSUB, spec R214. -/
  | vsub (e : Enc)
  /-- VADDC, spec R215. -/
  | vaddc (e : Enc)
  /-- VSUBB, spec R215. -/
  | vsubb (e : Enc)
  /-- VMUL, spec R214. -/
  | vmul (e : Enc)
  /-- VMULH, spec R214. -/
  | vmulh (e : Enc)
  /-- VMAD, spec R214. -/
  | vmad (e : Enc)
  /-- VMADW, spec R216. -/
  | vmadw (e : Enc)
  /-- VABSD, spec R214. -/
  | vabsd (e : Enc)
  /-- VAND, spec R214. -/
  | vand (e : Enc)
  /-- VOR, spec R214. -/
  | vor (e : Enc)
  /-- VXOR, spec R214. -/
  | vxor (e : Enc)
  /-- VNOT, spec R214. -/
  | vnot (e : Enc)
  /-- VSHL, spec R214. -/
  | vshl (e : Enc)
  /-- VSHR, spec R214. -/
  | vshr (e : Enc)
  /-- VSAR, spec R214. -/
  | vsar (e : Enc)
  /-- VROT, spec R214. -/
  | vrot (e : Enc)
  /-- VMIN, spec R214. -/
  | vmin (e : Enc)
  /-- VMAX, spec R214. -/
  | vmax (e : Enc)
  /-- VCLZ, spec R214. -/
  | vclz (e : Enc)
  /-- VPOPC, spec R214. -/
  | vpopc (e : Enc)
  /-- VBFE, spec R214. -/
  | vbfe (e : Enc)
  /-- VBFI, spec R214. -/
  | vbfi (e : Enc)
  /-- VCMP, spec R217. -/
  | vcmp (e : Enc)
  /-- VSEL, spec R217. -/
  | vsel (e : Enc)
  /-- VCVT, spec R218. -/
  | vcvt (e : Enc)
  /-- FADD, spec R219. -/
  | fadd (e : Enc)
  /-- FSUB, spec R219. -/
  | fsub (e : Enc)
  /-- FMUL, spec R219. -/
  | fmul (e : Enc)
  /-- FFMA, spec R219. -/
  | ffma (e : Enc)
  /-- FMIN, spec R220. -/
  | fmin (e : Enc)
  /-- FMAX, spec R220. -/
  | fmax (e : Enc)
  /-- FCMP, spec R221. -/
  | fcmp (e : Enc)
  /-- FCLASS, spec R221. -/
  | fclass (e : Enc)
  /-- FDIV, spec R219. -/
  | fdiv (e : Enc)
  /-- FSQRT, spec R219. -/
  | fsqrt (e : Enc)
  /-- FRCP, spec R219. -/
  | frcp (e : Enc)
  /-- FRSQ, spec R219. -/
  | frsq (e : Enc)
  /-- FEXP2, spec R219. -/
  | fexp2 (e : Enc)
  /-- FLOG2, spec R219. -/
  | flog2 (e : Enc)
  /-- FSIN, spec R219. -/
  | fsin (e : Enc)
  /-- FCOS, spec R219. -/
  | fcos (e : Enc)
  /-- FCVT, spec R218. -/
  | fcvt (e : Enc)
  /-- FRND, spec R222. -/
  | frnd (e : Enc)
  /-- FSCL, spec R222. -/
  | fscl (e : Enc)
  /-- VSHUF.idx, spec R223. -/
  | vshufIdx (e : Enc)
  /-- VSHUF.xor, spec R223. -/
  | vshufXor (e : Enc)
  /-- VSHUF.up, spec R223. -/
  | vshufUp (e : Enc)
  /-- VSHUF.down, spec R223. -/
  | vshufDown (e : Enc)
  /-- VBCAST, spec R223. -/
  | vbcast (e : Enc)
  /-- VROTL, spec R223. -/
  | vrotl (e : Enc)
  /-- VRED.add, spec R224. -/
  | vredAdd (e : Enc)
  /-- VRED.min, spec R224. -/
  | vredMin (e : Enc)
  /-- VRED.max, spec R224. -/
  | vredMax (e : Enc)
  /-- VRED.and, spec R224. -/
  | vredAnd (e : Enc)
  /-- VRED.or, spec R224. -/
  | vredOr (e : Enc)
  /-- VRED.xor, spec R224. -/
  | vredXor (e : Enc)
  /-- VSCAN.add, spec R225. -/
  | vscanAdd (e : Enc)
  /-- VSCAN.min, spec R225. -/
  | vscanMin (e : Enc)
  /-- VSCAN.max, spec R225. -/
  | vscanMax (e : Enc)
  /-- VSCAN.and, spec R225. -/
  | vscanAnd (e : Enc)
  /-- VSCAN.or, spec R225. -/
  | vscanOr (e : Enc)
  /-- VSCAN.xor, spec R225. -/
  | vscanXor (e : Enc)
  /-- RVSEND, spec R226. -/
  | rvsend (e : Enc)
  /-- RVRECV, spec R226. -/
  | rvrecv (e : Enc)
  /-- BADD, spec R230. -/
  | badd (e : Enc)
  /-- BSUB, spec R230. -/
  | bsub (e : Enc)
  /-- BNEG, spec R230. -/
  | bneg (e : Enc)
  /-- BCMP, spec R231. -/
  | bcmp (e : Enc)
  /-- BSHL, spec R230. -/
  | bshl (e : Enc)
  /-- BSHR, spec R230. -/
  | bshr (e : Enc)
  /-- BMULL, spec R230. -/
  | bmull (e : Enc)
  /-- BMULH, spec R230. -/
  | bmulh (e : Enc)
  /-- BMULS, spec R230. -/
  | bmuls (e : Enc)
  /-- BDIVQR, spec R232. -/
  | bdivqr (e : Enc)
  /-- BLEN, spec R231. -/
  | blenTag (e : Enc)
  /-- BLEN, spec R231. -/
  | blenResize (e : Enc)
  /-- BNORM, spec R230. -/
  | bnorm (e : Enc)
  /-- BSPILL, spec R233. -/
  | bspill (e : Enc)
  /-- BFILL, spec R233. -/
  | bfill (e : Enc)
  /-- CRES, spec R235. -/
  | cres (e : Enc)
  /-- MADD, spec R237. -/
  | madd (e : Enc)
  /-- MSUB, spec R237. -/
  | msub (e : Enc)
  /-- MMUL, spec R237. -/
  | mmul (e : Enc)
  /-- MRED, spec R237. -/
  | mred (e : Enc)
  /-- LD, spec R241. -/
  | ld (e : Enc)
  /-- LDU, spec R241. -/
  | ldu (e : Enc)
  /-- ST, spec R241. -/
  | st (e : Enc)
  /-- LDB, spec R242. -/
  | ldb (e : Enc)
  /-- STB, spec R242. -/
  | stb (e : Enc)
  /-- ATOM.add, spec R243. -/
  | atomAdd (e : Enc)
  /-- ATOM.and, spec R243. -/
  | atomAnd (e : Enc)
  /-- ATOM.or, spec R243. -/
  | atomOr (e : Enc)
  /-- ATOM.xor, spec R243. -/
  | atomXor (e : Enc)
  /-- ATOM.min, spec R243. -/
  | atomMin (e : Enc)
  /-- ATOM.max, spec R243. -/
  | atomMax (e : Enc)
  /-- ATOM.exch, spec R243. -/
  | atomExch (e : Enc)
  /-- ATOM.cas, spec R243. -/
  | atomCas (e : Enc)
  /-- ATOMC.cas, spec R244. -/
  | atomcCas (e : Enc)
  /-- ATOM.XADD, spec R244. -/
  | atomXadd (e : Enc)
  /-- RED.add, spec R243. -/
  | redAdd (e : Enc)
  /-- RED.and, spec R243. -/
  | redAnd (e : Enc)
  /-- RED.or, spec R243. -/
  | redOr (e : Enc)
  /-- RED.xor, spec R243. -/
  | redXor (e : Enc)
  /-- RED.min, spec R243. -/
  | redMin (e : Enc)
  /-- RED.max, spec R243. -/
  | redMax (e : Enc)
  /-- WAITC, spec R128. -/
  | waitc (e : Enc)
  /-- WAITC.all.sc, spec R129. -/
  | waitcScFence (e : Enc)
  /-- PREF, spec R246. -/
  | pref (e : Enc)
  /-- CFLUSH, spec R247. -/
  | cflush (e : Enc)
  /-- CINV, spec R247. -/
  | cinv (e : Enc)
  /-- XCOPY, spec R250. -/
  | xcopy (e : Enc)
  /-- XREG, spec R251. -/
  | xreg (e : Enc)
  /-- XGATH, spec R252. -/
  | xgath (e : Enc)
  /-- XCHAIN, spec R253. -/
  | xchain (e : Enc)
  /-- QPUSH, spec R254. -/
  | qpush (e : Enc)
  /-- QPOP, spec R254. -/
  | qpop (e : Enc)
  /-- HALLOC, spec R255. -/
  | halloc (e : Enc)
  /-- HFREE, spec R255. -/
  | hfree (e : Enc)
  /-- RGIVE, spec R257. -/
  | rgive (e : Enc)
  /-- RCLAIM, spec R257. -/
  | rclaim (e : Enc)
  /-- MXMAC, spec R262. -/
  | mxmac (e : Enc)
  /-- MXPAIR, spec R265. -/
  | mxpair (e : Enc)
  /-- MXRD, spec R266. -/
  | mxrd (e : Enc)
  /-- MXWR, spec R266. -/
  | mxwr (e : Enc)
  /-- MXZ, spec R266. -/
  | mxz (e : Enc)
  /-- BOOMLD, spec R267. -/
  | boomld (e : Enc)
  /-- BMUL, spec R269. -/
  | bmul (e : Enc)
  /-- NTT, spec R270. -/
  | ntt (e : Enc)
  /-- INTT, spec R270. -/
  | intt (e : Enc)
  /-- KSWITCH, spec R272. -/
  | kswitch (e : Enc)
  /-- XCRT, spec R273. -/
  | xcrt (e : Enc)
  /-- LNEST, spec R274. -/
  | lnest (e : NestEnc)
  /-- CUEPUSH, spec R277. -/
  | cuepush (e : Enc)
  /-- CUEPOP, spec R143. -/
  | cuepop (e : Enc)
  /-- GAINADD, spec R146. -/
  | gainadd (e : Enc)
  /-- GAINSET, spec R146. -/
  | gainset (e : Enc)
  /-- RESADD, spec R147. -/
  | resadd (e : Enc)
  /-- GROW, spec R279. -/
  | grow (e : Enc)
  /-- SKLOOK, spec R281. -/
  | sklook (e : Enc)
  /-- SKLD, spec R282. -/
  | skld (e : Enc)
  /-- SKREF, spec R282. -/
  | skref (e : Enc)
  /-- SKUNREF, spec R282. -/
  | skunref (e : Enc)
  /-- SKCOPY, spec R282. -/
  | skcopy (e : Enc)
  /-- ROOTCAS, spec R283. -/
  | rootcas (e : Enc)
  /-- RESERVED_OPC, spec R178. -/
  | reservedOpc (w : W64)
  /-- SLEEP_INTERVAL_END, spec R198. -/
  | sleepIntervalEnd
  /-- RENDEZVOUS_PAIRING, spec R226. -/
  | rendezvousPairing
  /-- COPY_OPERATION_COMPLETION, spec R249. -/
  | copyOperationCompletion
  /-- HEAP_OPERATION_COMPLETION, spec R255. -/
  | heapOperationCompletion
  /-- MXPAIR_PAIRING, spec R265. -/
  | mxpairPairing
  /-- MXPAIR_TIMEOUT, spec R265. -/
  | mxpairTimeout
  /-- MATRIX_OPERATION_START, spec R262. -/
  | matrixOperationStart
  /-- MATRIX_OPERATION_COMPLETION, spec R263. -/
  | matrixOperationCompletion
  /-- TOKEN_GRANT, spec R304. -/
  | tokenGrant
  /-- BURST_END_LIMIT, spec R264. -/
  | burstEndLimit
  /-- BURST_END_IDLE, spec R264. -/
  | burstEndIdle
  /-- NTT_UNIT_OPERATION_COMPLETION, spec R268. -/
  | nttUnitOperationCompletion
  /-- STREAM_ENGINE_COMPLETION, spec R274. -/
  | streamEngineCompletion
  /-- CUE_WRITE_OUT, spec R148. -/
  | cueWriteOut
  /-- LOOKUP_OR_ALLOCATE, spec R111. -/
  | lookupOrAllocate
  /-- STOCK_OPERATION_COMPLETION, spec R258. -/
  | stockOperationCompletion
  /-- LOAD_COMPLETION, spec R248. -/
  | loadCompletion
  /-- STORE_COMPLETION, spec R248. -/
  | storeCompletion
  /-- PAGE_WALK, spec R334. -/
  | pageWalk
  /-- FAULT_RECORD, spec R335. -/
  | faultRecord
  /-- RETRY, spec R336. -/
  | retry
  /-- FAIL, spec R336. -/
  | fail
  /-- TLBINV, spec R334. -/
  | tlbinv
  /-- TLB_INVALIDATE_DONE, spec R334. -/
  | tlbInvalidateDone
  /-- DEPENDENCE_CHECK, spec R314. -/
  | dependenceCheck
  /-- PACKET_TAKE, spec R315. -/
  | packetTake
  /-- TEAM_DISPATCH, spec R39. -/
  | teamDispatch
  /-- TEAM_ADMISSION, spec R34. -/
  | teamAdmission
  /-- GRID_COMPLETION, spec R41. -/
  | gridCompletion
  /-- PREEMPT, spec R338. -/
  | preempt
  /-- PREEMPT_IMAGE_WRITE, spec R338. -/
  | preemptImageWrite
  /-- RESTORE, spec R337. -/
  | restore
  /-- KEY_LOAD, spec R356. -/
  | keyLoad
  /-- KEY_DESTROY, spec R357. -/
  | keyDestroy
  /-- KEY_DESTROY_SLICE, spec R357. -/
  | keyDestroySlice
  /-- MAPOUT_ACK, spec R352. -/
  | mapoutAck
  /-- BANKROLE_WRITE, spec R323. -/
  | bankroleWrite
  /-- BANK_ROLE_TAKE_UP, spec R323. -/
  | bankRoleTakeUp
  /-- SMPCTL_WRITE, spec R385. -/
  | smpctlWrite
  /-- REGISTER_WRITE, spec R11. -/
  | registerWrite
  /-- CORRECTED_ERROR, spec R351. -/
  | correctedError
  /-- UNCORRECTABLE_MEMORY_ERROR, spec R351. -/
  | uncorrectableMemoryError
  /-- PATROL_SCRUB, spec R351. -/
  | patrolScrub
  /-- CONTEXT_DATA_ERROR, spec R342. -/
  | contextDataError
  /-- CORE_HARDWARE_FAULT, spec R342. -/
  | coreHardwareFault
  /-- DIE_CONTROL_FAULT, spec R342. -/
  | dieControlFault
  /-- CORE_RESET, spec R342. -/
  | coreReset
  /-- COLD_RESET, spec R358. -/
  | coldReset
  /-- WARM_RESET, spec R358. -/
  | warmReset
  /-- POWER_LOSS, spec R372. -/
  | powerLoss
  /-- CORE_HOT, spec R319. -/
  | coreHot
  /-- CORE_HOT_CLEAR, spec R319. -/
  | coreHotClear
  /-- DROOP_EVENT, spec R320. -/
  | droopEvent
  /-- BUDGET_WINDOW, spec R326. -/
  | budgetWindow
  /-- LINK_STATE_CHANGE, spec R354. -/
  | linkStateChange
  /-- HOST_MEMORY_ACCESS, spec R347. -/
  | hostMemoryAccess
  /-- GET_IDENTITY, spec R355. -/
  | getIdentity
  /-- GET_BRINGUP, spec R355. -/
  | getBringup
  /-- STAGE_CONFIG, spec R355. -/
  | stageConfig
  /-- ATTEST, spec R355. -/
  | attest
  /-- PORT_SEND, spec R355. -/
  | portSend
  /-- PORT_RECV, spec R355. -/
  | portRecv
  /-- PORT_MESSAGE_RECEIVE, spec R354. -/
  | portMessageReceive
  /-- PTP_EVENT_MESSAGE, spec R379. -/
  | ptpEventMessage
  /-- SLATE_LIST, spec R377. -/
  | slateList
  /-- SLATE_READ, spec R377. -/
  | slateRead
  /-- SLATE_ACK, spec R377. -/
  | slateAck
  /-- EPOCH, spec R363. -/
  | epoch
  /-- FREEZE, spec R369. -/
  | freeze
  /-- SLATE_STORE, spec R372. -/
  | slateStore
  /-- REEL_MIRROR_WRITE, spec R368. -/
  | reelMirrorWrite
  /-- SAMPLE_INSTANT, spec R380. -/
  | sampleInstant
  /-- SAMPLE_WRITE, spec R383. -/
  | sampleWrite
  /-- INSTRUCTION_FETCH, spec R154. -/
  | instructionFetch
  /-- MULTI_CYCLE_FORM_COMPLETION, spec R213. -/
  | multiCycleFormCompletion
  /-- BMUL_SCHOOLBOOK_COMPLETION, spec R269. -/
  | bmulSchoolbookCompletion
  /-- CYCLE_COUNT_OVERFLOW, spec R343. -/
  | cycleCountOverflow
  /-- TEMPERATURE_SENSOR_READING, spec R320. -/
  | temperatureSensorReading
  /-- HOST_AGENT_ACCESS, spec R346. -/
  | hostAgentAccess
deriving DecidableEq, Repr

end Sys2Proof
end

