-- ==== Sys2Proof/Machine/State.lean ====
section
/-! DEFINITION. The state of the device, as plain data (INVENTORY.md, State). -/

namespace Sys2Proof.Machine

/-- Why the machine stops. -/
inductive Fault where
  /-- exec was asked to issue an instruction and no resident group stands at the state's index of the issuing group; raised
  by the issue of every instruction form. Safe: the device issues an instruction only for a resident group (spec 01 R33). -/
  | noGroup
deriving DecidableEq, Repr

/-- Why an instruction has no meaning. -/
inductive Refusal where
  /-- The instruction is not modelled yet; raised by an arm of exec that rejects it by name. Safe. -/
  | notModelled (mnemonic : String)
deriving DecidableEq, Repr

/-- Bytes by address in one canonical form: addresses rise strictly and no entry equals what an unlisted address reads as. -/
abbrev Memory := List Host.Cell

/-- What an address that no entry lists reads as (log 4). -/
def Memory.blank : Byte := 0

/-- The canonical form of a memory. -/
def Memory.wf : Memory → Bool
  | [] => true
  | [c] => c.2 != Memory.blank
  | c :: d :: m => c.2 != Memory.blank && decide (c.1 < d.1) && Memory.wf (d :: m)

/-- Classes of outstanding operations (spec 02 R57). -/
inductive Cls where
  | ld | st | xc | mx | nt | ln | hp | sk | cq
deriving DecidableEq, Repr

/-- The address spaces an instruction names (spec 04 R95). -/
inductive Space where
  | g | s | k | b
deriving DecidableEq, Repr

/-- A register of a group, as chains and scoreboard bits name it (spec 02 R62). -/
inductive Res where
  | v (k : Nat) | s (k : Nat) | p (k : Nat)
deriving DecidableEq, Repr

/-- One vector register: a word for each lane, the lanes whose marker state is set, the length tag (spec 02 R50, R55, R58). -/
structure VReg where
  val : List W32
  mark : Mask
  tag : BitVec 8
deriving DecidableEq, Repr

/-- What a chain member delivers to the latches (spec 02 R61). -/
inductive LatchVal where
  /-- a form without destination -/
  | none
  | lanes (vals : List W32)
  | mask (m : Mask)
  /-- from a scalar destination, or none -/
  | scalar (w : W32)
  /-- a uniform result from a vector or predicate destination (08 R208) -/
  | uniform (w : W32)
deriving DecidableEq, Repr

/-- An open chain (spec 02 R60 to R64): position of the next member, address of the first, values delivered (latest first),
registers read so far. -/
structure Chain where
  pos : Nat
  first : W64
  hist : List LatchVal
  reads : List Res
deriving DecidableEq, Repr

/-- A register write that an operation makes when it completes; its register is guarded until then (spec 10 R241). -/
inductive Land where
  | v (k : Nat) (lanes : Mask) (vals : List W32) (tag : BitVec 8)
  | s (k : Nat) (val : W32)
  /-- spill word k (09 R229) -/
  | spill (k : Nat) (val : W32)
deriving DecidableEq, Repr

/-- The header of a limb array (spec 04 R107). -/
structure LimbHdr where
  len : W32
  cap : W32
  flags : W32
  rsvd : W32
deriving DecidableEq, Repr

/-- Where a byte of some space lies: device or host memory with its key binding; the stage part and operand-bank window of a
half of a team, by logical OFFSET with the OPB bit and the swizzle mode; the Boom allocation of a half. -/
inductive Place where
  | dev (pa : Nat) (key : Option (Fin 64))
  | host (pa : Nat)
  | stage (team : Nat) (odd : Bool) (swz : Nat) (off : Nat)
  | boom (team : Nat) (odd : Bool) (off : Nat)
deriving DecidableEq, Repr

/-- What an access of a lane does: load, store, a piece of an array stored in turn (10 R242), an atomic operation by its SUB with or
without a result (10 R243), the two operations on cells of 16 bytes (10 R244), maintenance of a line (10 R247). -/
inductive AccKind where
  | load | store | array
  | atom (sub : Nat)
  | red (sub : Nat)
  | cas | xadd
  | clean | inval
deriving DecidableEq, Repr

/-- One access, by its lane or piece: where its n bytes lie, the value stored or the operand, the third operand. -/
structure Access where
  lane : Nat
  place : Place
  n : Nat
  a : Nat
  b : Nat
deriving DecidableEq, Repr

/-- The accesses of one instruction (spec 04 R121 to R124): type, ORDER and SCOPE codes, the lane whose value a uniform result
takes, accesses not yet performed, values read by lane, the device bytes that the instruction stores. -/
structure Acc where
  kind : AccKind
  ety : Nat
  ord : Nat
  scope : Nat
  uni : Option Nat
  todo : List Access
  got : List (Nat × Nat)
  wrote : List (Nat × Nat)
deriving DecidableEq, Repr

/-- The operands of a matrix operation as read at issue (spec 11 R260 to R265). -/
structure MxArgs where
  /-- control word -/
  ctl : BitVec 54
  /-- rows that are updated, row r at bit r -/
  rows : BitVec 128
  /-- A in registers: the words of each row -/
  aRegs : List (List W32)
  aAddr : W32
  bAddr : W32
  scAddr : W32
deriving DecidableEq, Repr

/-- What an outstanding operation has still to do. -/
inductive OpBody where
  /-- nothing but its landing: prefetch, multi-cycle forms, accesses performed at issue -/
  | plain
  /-- accesses of lanes: loads, stores, atomics, cache maintenance -/
  | mem (a : Acc)
  | copy (dsp ssp : Space) (dst src : W64) (n : Nat)
  | regIn (sp : Space) (addr : W64) (target k n : Nat)
  | regOut (sp : Space) (addr : W64) (words : List W32)
  | gather (desc : W64) (dsc isp osp : Bool) (start count : Nat)
  /-- the next record, and the records before it -/
  | walk (rec : W64) (hops : Nat)
  | boomld (boff : W32) (ssp : Space) (src : W64) (n : Nat)
  | mxmac (a : MxArgs)
  | mxpair (a : MxArgs) (odd : Bool)
  | mxrd (offs : List (Nat × Nat)) (flag : Bool) (k : Nat)
  | mxwr (words : List (Nat × W32))
  | mxz (tile : Nat) (wide : Bool)
  | cres (addr : W64) (sp : Space) (ctl : BitVec 54) (start n : Nat)
  | bmul (da aa ba : W64) (dsp asp bsp : Space) (dh ah bh : LimbHdr) (tile boff : Nat) (school : Bool)
  | ntt (inv : Bool) (da aa : W64) (dsp asp : Space) (logn : Nat) (w : W64) (pform : W32)
  /-- addresses and headers as read at issue: ciphertext, key -/
  | kswitch (c k : W64) (ch kh : List Byte)
  | xcrt (d : W64)
  | nest (e : NestEnc) (db ab bb : W64) (strides : List Int) (pform : W32)
  | halloc (size : W32) (dst : Option Nat) (sts : Nat)
  | hfree (addr : W64)
  | sklook (line : List Byte)
  | skld (name : BitVec 128) (stage : Option W32) (k : Nat)
  | skref (up : Bool) (name : BitVec 128)
  | skcopy (dst : W64) (sp : Space) (name : BitVec 128) (limit : W32) (depth : Nat)
deriving DecidableEq, Repr

/-- Progress of an operation: queued at its unit, started, complete, or paused on a fault record (spec 10 R249). -/
inductive OpPhase where
  | queued | started | done | paused
deriving DecidableEq, Repr

/-- An engine fault to be delivered at the group's next instruction (spec 10 R249 item 6): kind of 19 R328, address, and the
bytes of its instruction, for the reissue list (19 R340). -/
structure Due where
  kind : Nat
  addr : W64
  word : BitVec 256 := 0
deriving DecidableEq, Repr

/-- An outstanding operation of a group (spec 02 R57, 10 R249). -/
structure Op where
  id : Nat
  /-- its counter; none for a multi-cycle form (09 R213) -/
  cls : Option Cls
  /-- address of its instruction -/
  pc : W64
  /-- the instruction's bytes, for the reissue list (19 R340) -/
  word : BitVec 256
  phase : OpPhase
  lands : List Land
  /-- registers held against reads and writes until it completes -/
  hold : List Res
  /-- registers held against writes until it has read them (11 R260) -/
  holdW : List Res
  body : OpBody
  /-- what it faulted on (10 R249 item 6) -/
  fault : Option Due
  /-- the ranges that parts of it which are done have written, by space, address and length (10 R249, 18 R326) -/
  wrote : List (Space × W64 × Nat) := []
  /-- what requests that it has still to make have been charged in advance, while a budget held it: die and bytes (18 R326; log 42) -/
  paid : List (Nat × Nat) := []
deriving DecidableEq, Repr

/-- Why a group does not issue, when it waits (spec 01 R43). -/
inductive Wait where
  | ready
  /-- in BAR or BARW, until the phase of barrier b is at least n (08 R196) -/
  | barrier (b n : Nat)
  /-- in SLEEP until the cycle (08 R198) -/
  | sleep (till : Nat)
  /-- held for translation, or for service of an SVC (19 R335, 11 R284) -/
  | held (svc : Bool)
  /-- queued in RVSEND or RVRECV (09 R226) -/
  | rv
  /-- queued in QPUSH or QPOP (10 R254) -/
  | queue
  /-- queued in RCLAIM (10 R257) -/
  | regs
  /-- waiting in CUEPOP (05 R143) -/
  | cue
  /-- an MXPAIR waiting for its partner since a cycle, or paired and not yet in the engine's queue (11 R265) -/
  | pair
  /-- an SKLOOK not yet linearised (11 R281) -/
  | stock
  /-- for a page walker, room in a queue or a bandwidth budget, by the reason of R382, since a cycle; it tries again in the next (19
  R334, 11 R263, 18 R325). budgets: the traffic classes and dies of requests that a budget holds -/
  | again (reason cycle : Nat) (budgets : List (Nat × Nat))
deriving DecidableEq, Repr

/-- An entry of the hidden inline-call stack (spec 12 R299). -/
structure Inline where
  at_ : W64
  exec : Mask
  lanes : Mask
deriving DecidableEq, Repr

/-- A resident group (spec 01 R14 to R30, 02 R50, R65). -/
structure Group where
  /-- false once the team has left the core -/
  live : Bool
  grid : W32
  team : W32
  idx : Nat
  /-- groups in the team (08 R200) -/
  nGroups : Nat
  ctx : W32
  core : Nat
  quad : Nat
  slot : Nat
  half : Bool
  width : Nat
  pc : W64
  exec : Mask
  parked : Mask
  served : Mask
  stored : Mask
  exited : Mask
  lanePC : List W64
  yc : BitVec 2
  sregs : List W32
  vregs : List VReg
  preds : List Mask
  accSlots : Nat
  acc : Memory
  window : BitVec 2
  chain : Option Chain
  ops : List Op
  opSeq : Nat
  due : List Due
  prio : BitVec 2
  cdepth : BitVec 4
  ntthr : BitVec 16
  pform : W32
  strict : Bool
  xbase : W64
  xcause : W32
  xval : W64
  xpc : W64
  xrpc : W64
  trap : Bool
  inchain : Bool
  chpos : BitVec 3
  /-- the first address of the chain in which it last trapped (02 R64) -/
  chfirst : W64
  tokwait : W64
  spwEn : Bool
  spwBase : BitVec 10
  role : BitVec 4
  pmc : List (BitVec 48)
  pmsel : List (BitVec 5)
  pmovf : BitVec 8
  pmctl : BitVec 8
  arr : List Nat
  inline : List Inline
  task : Bool
  /-- lanes that a withdrawn CUEPOP has still to serve; 0 for none (05 R152) -/
  cueLeft : Mask
  wait : Wait
  /-- the cycle of its last issue, or in which it last became ready (01 R44) -/
  since : Nat
  /-- it was stalled when the last cycle ended -/
  stalled : Bool
  fetched : Option (Nat × List Byte)
  /-- the group has exited (01 R26) -/
  gone : Bool
  /-- stopped by a fatal context or for pre-emption (19 R342, R338) -/
  stopped : Bool
  /-- instructions that it has still to issue again after a pre-emption, before any other (19 R340, R341) -/
  redo : List (BitVec 256)
  /-- the increments of the present cycle that its counters have still to take: counter, event, how many (19 R344) -/
  pend : List (Nat × Nat × Nat) := []
  /-- the counters that have already counted the present cycle (19 R343) -/
  early : List Nat := []
deriving DecidableEq, Repr

/-- An entry of a Stage queue (spec 10 R254): lane words and pushing group. -/
structure QEntry where
  val : List W32
  by_ : Nat
deriving DecidableEq, Repr

/-- A waiting QPUSH: group, queue, value (spec 10 R254). -/
structure QPush where
  g : Nat
  q : Nat
  val : List W32
deriving DecidableEq, Repr

/-- A waiting QPOP: group, queue, qualifying lanes, destination (spec 10 R254). -/
structure QPop where
  g : Nat
  q : Nat
  lanes : Mask
  dst : Dst
  nw : Bool
deriving DecidableEq, Repr

/-- A waiting RVSEND (its register) or RVRECV (lanes, register) (spec 09 R226). -/
inductive RvKind where
  | send (k : Nat)
  | recv (lanes : Mask) (dst : Dst) (nw : Bool)
deriving DecidableEq, Repr

structure RvWait where
  g : Nat
  slot : Nat
  kind : RvKind
deriving DecidableEq, Repr

/-- A waiting RCLAIM (spec 10 R257). -/
structure Claim where
  g : Nat
  n : Nat
deriving DecidableEq, Repr

/-- A waiting MXPAIR: group, operation, cycle of issue, whether it is paired and waits for room in the queues (spec 11 R265). -/
structure PairWait where
  g : Nat
  op : Nat
  at_ : Nat
  paired : Bool
  /-- one that a restore issues again, ahead of the group's next instruction (19 R341) -/
  reissued : Bool := false
deriving DecidableEq, Repr

/-- One core's share of a team's Stage and Boom (spec 04 R101 to R103, 18 R324). -/
structure Half where
  /-- bytes of the stage part -/
  stage : Nat
  /-- 4 KiB units taken, stage part first, as bank and unit -/
  units : List (Nat × Nat)
  /-- operand banks taken -/
  banks : List Nat
  /-- stage part and operand-bank window by physical OFFSET with the OPB bit -/
  cells : Memory
  /-- bytes of the Boom allocation -/
  boom : Nat
  boomCells : Memory
  /-- free register blocks of quadrant q for role r at 16 q + r (10 R257) -/
  pools : List Nat
deriving DecidableEq, Repr

/-- A resident team (spec 01 R33 to R38). -/
structure Team where
  grid : W32
  id : W32
  ctx : W32
  pair : Bool
  core : Nat
  width : Nat
  nGroups : Nat
  /-- .regs value (12 R294) -/
  regs : Nat
  phase : List Nat
  queues : List (List QEntry)
  allow : Nat
  pushWait : List QPush
  popWait : List QPop
  rv : List RvWait
  even : Half
  odd : Half
  claims : List Claim
  pairEven : List PairWait
  pairOdd : List PairWait
  stackBlocks : List Nat
  /-- pre-emption under way: image address (19 R338) -/
  stop : Option W64
  /-- the half whose core has been reset, true for the odd one (19 R341, R342) -/
  lost : Option Bool
deriving DecidableEq, Repr

/-- A kernel object's header (spec 12 R301). -/
structure KObj where
  symcount : W32
  argsize : W32
  datasize : W32
  textsize : W32
  cuetask : W32
  handler : W32
  entry : W32
  stack : W32
  allow : Byte
  queues : Byte
  boom : Byte
  opbanks : Byte
  stage : BitVec 16
  flags : Byte
  acc : Byte
  team : BitVec 16
  regs : Byte
  width : Byte
  version : BitVec 16
  magic : W32
  /-- bytes that must be zero -/
  zero : Bool
deriving DecidableEq, Repr

/-- A launch packet (spec 18 R313). -/
structure Packet where
  pmap : List Byte
  roles : W64
  recaddr : W64
  seq : W64
  prio : Byte
  constsize : W32
  unruncap : W32
  gcnt : W32
  unrun : W64
  doneval : W64
  doneaddr : W64
  waitval : W64
  waitaddr : W64
  const : W64
  args : W64
  kobj : W64
  /-- bytes that must be zero -/
  zero : Bool
deriving DecidableEq, Repr

/-- The device's record of a pre-empted team (spec 19 R337 to R341; log 11). -/
structure PreTeam where
  team : W32
  image : W64
  core : Nat
  /-- each group's barrier wait -/
  waits : List (Option (Nat × Nat))
  /-- groups with a task in flight (05 R152) -/
  tasks : List Bool
  /-- groups that were stopped within a chain (02 R64) -/
  replays : List Bool
  /-- the address of the first member of the chain in which each group last trapped (02 R64) -/
  firsts : List W64
  /-- the half that a reset of its core had taken away (19 R342) -/
  lost : Option Bool := none
  /-- the Boom content is retained, and not in the image: that of the even and the odd half (19 R339) -/
  kept : Bool
  boomEven : Memory
  boomOdd : Memory
  stackBlocks : List Nat
deriving DecidableEq, Repr

/-- A grid taken and not completed (spec 01 R39 to R42, 02 R65). -/
structure Grid where
  id : W32
  ctx : W32
  queue : Nat
  pri : Nat
  packet : Packet
  kobj : KObj
  gcnt : W32
  /-- next index to dispatch -/
  next : W32
  /-- the argument block's first bytes as read when the packet was taken (12 R296) -/
  args : List Byte
  exited : Nat
  running : Nat
  tol : W64
  resid : W64
  cuestate : BitVec 2
  cunrun : W32
  pre : List PreTeam
  fatal : Bool
deriving DecidableEq, Repr

/-- A live line of a Stock region (spec 04 R109 to R114): where its 256 bytes lie in device memory, and under which key slot;
its ordinal, DIGEST with byte i at bits 8i, and count. -/
structure StockLine where
  pa : Nat
  key : Option (Fin 64)
  ord : Byte
  digest : BitVec 120
  count : W32
deriving DecidableEq, Repr

/-- What the device keeps of a context: allocated arena blocks as address and class (10 R255), those that HALLOC returned,
the arena they were taken from, the live lines of its Stock region, whether it is fatal (19 R342). -/
structure Ctx where
  id : W32
  blocks : List (Nat × Nat)
  halloced : List Nat
  arena : W64
  arenaLen : W64
  stock : List StockLine
  fatal : Bool
deriving DecidableEq, Repr

/-- A live entry of the Cue heap (spec 05 R138 to R142). -/
structure CueEntry where
  slot : Nat
  gen : BitVec 16
  stamp : Nat
  gain : W32
  /-- words 1 to 7 of the entry as pushed -/
  rest : List W32
deriving DecidableEq, Repr

/-- A shard: live entries, and the generation counters that have left 1 (spec 05 R139). -/
structure Shard where
  entries : List CueEntry
  gens : List (Nat × BitVec 16)
deriving DecidableEq, Repr

/-- A waiting pop of one lane (spec 05 R141, R144). -/
structure Pop where
  g : Nat
  lane : Nat
  die : Nat
  shard : Nat
deriving DecidableEq, Repr

/-- The Cue heap (spec 05): owner, dies of the heap, 32 shards die-major, push stamps of the dies, waiting pops oldest first. -/
structure Cue where
  owner : Option W32
  dies : List Nat
  shards : List Shard
  stamps : List Nat
  pops : List Pop
deriving DecidableEq, Repr

/-- A cached translation (spec 19 R334): context, virtual page, page size in bits, the leaf entry. -/
structure Tlb where
  ctx : W32
  vpage : Nat
  bits : Nat
  leaf : W64
deriving DecidableEq, Repr

/-- The stall sampler of a core (spec 21 R380 to R385). -/
structure Sampler where
  en : Bool
  allctx : Bool
  period : BitVec 16
  ctx : W32
  base : W64
  head : W32
  tail : W32
  drop : W32
  /-- cycle of the next instant -/
  next : Nat
  /-- the cycle after that of the last instant -/
  done : Nat
  last : List Nat
  staging : List (BitVec 256)
deriving DecidableEq, Repr

/-- A place in a unit's queue: group and operation, the cycle of its arrival, and its rank among those of that cycle (spec 11 R263,
R268). -/
structure Queued where
  g : Nat
  op : Nat
  at_ : Nat
  rank : Nat
deriving DecidableEq, Repr

/-- The instruction that a quadrant issued last (spec 01 R16): its group, its address, the cycle, whether it takes a second one, the
PMC that it wrote, with its count before (19 R344), and the issues of the last four cycles, as group and cycle (01 R44). -/
structure Issued where
  g : Nat
  pc : W64
  at_ : Nat
  two : Bool
  pmc : Option (Nat × BitVec 48)
  late : List (Nat × Nat) := []
deriving DecidableEq, Repr

/-- A 128-byte line in a core's L1: of host or device memory, its number, and the L1-extension bank that holds it, if one does
(spec 00 R4, 04 R104, 18 R323). -/
structure L1Line where
  host : Bool
  line : Nat
  bank : Option Nat
deriving DecidableEq, Repr

/-- A core (spec 00 R4, 18 R319 to R324). -/
structure Core where
  bankrole : W64
  bankact : W64
  bankauto : W32
  temp : Byte
  droops : List Nat
  hot : Bool
  coolSince : Option Nat
  fenced : Bool
  start : Nat
  /-- matrix engine queue, oldest first (11 R263) -/
  mxq : List Queued
  /-- NTT queue of the pair, at its even core (11 R268) -/
  ntt : List Queued
  /-- what each quadrant issued last (01 R16) -/
  issued : List (Option Issued)
  smp : Sampler
  tlb1 : List (List Tlb)
  tlb2 : List Tlb
  /-- lines held by L1, oldest first -/
  l1 : List L1Line
deriving DecidableEq, Repr

/-- A cluster's power token (spec 11 R264). -/
structure Cluster where
  token : Bool
  taken : Nat
  lastMx : Nat
deriving DecidableEq, Repr

/-- A die. -/
structure Die where
  clusters : List Cluster
  lastGrant : Option Nat
  /-- clusters that released a token since the last grant decision (13 R304) -/
  released : List Nat
  bwb : List (BitVec 24)
  /-- the microsecond of NSTIME whose budgets are in use (18 R326) -/
  bwWindow : Nat
  /-- bytes that each traffic class has used in it, while it has a budget -/
  bwUsed : List Nat
  /-- the cycle after the one in which walks were last made, and how many were made in it (19 R334) -/
  walks : Nat × Nat
  /-- the cycle after that of the last grant decision (13 R304) -/
  decided : Nat
  sigdrop : W32
  down : Bool
deriving DecidableEq, Repr

/-- The memory copy of a ring (spec 21 R368). -/
structure Mirror where
  pa : W64
  en : Bool
  size : BitVec 4
  head : W32
  tail : W32
  drop : W32
  staging : List (BitVec 128)
deriving DecidableEq, Repr

/-- A Reel ring (spec 21 R361, R369): records oldest first. -/
structure Ring where
  recs : List (BitVec 128)
  frozen : Bool
  lost : W32
  mir : Mirror
deriving DecidableEq, Repr

/-- A stored Slate (spec 21 R373, R374). -/
structure Slate where
  acked : Bool
  seq : W64
  tf : W64
  cause : Byte
  level : Byte
  origin : Nat
  causeCtx : BitVec 16
  nfatal : Nat
  imgseq : W64
  /-- each ring's records at freeze and its LOST count -/
  rings : List (List (BitVec 128) × W32)
deriving DecidableEq, Repr

/-- A line of the memory-side cache: line number, dirty, key slot (spec 04 R118, 20 R357). -/
structure CacheLine where
  line : Nat
  dirty : Bool
  slot : Option (Fin 64)
deriving DecidableEq, Repr

/-- How a mailbox command ended (spec 20 R355, 21 R377). -/
inductive MailCode where
  | success | busy | error
deriving DecidableEq, Repr

/-- A fault record to be written, or written and not answered (spec 19 R335, R336). -/
structure FaultRec where
  /-- SEQ once it is written -/
  seq : Option W32
  g : Nat
  /-- the operation, for an engine access -/
  op : Option Nat
  kind : Nat
  va : W64
  level : Nat
  ctx : W32
  /-- CH of the instruction that faulted; false for a fetch -/
  ch : Bool
deriving DecidableEq, Repr

/-- PECMD (spec 19 R337). -/
structure PeCmd where
  image : W64
  grid : W32
  team : W32
  target : BitVec 16
  status : Byte
  op : BitVec 4
deriving DecidableEq, Repr

/-- A link: a CXL port, die-to-die link or chip-to-chip port (spec 20 R348, R354). -/
structure Link where
  lanes : BitVec 4
  state : BitVec 2
deriving DecidableEq, Repr

/-- A chip-to-chip port's message queues (spec 20 R354, R355). -/
structure Port where
  out : List (List Byte)
  inn : List (List Byte)
deriving DecidableEq, Repr

/-- One copy of the configuration image in flash: header fields and records, whether its signature verifies (spec 20 R358,
R359). -/
structure FlashCopy where
  bytes : List Byte
deriving DecidableEq, Repr

/-- What bring-up finds (spec 20 R358): the firmware and its signature, the memory regions present, and for each link its lanes. -/
structure BringupFound where
  firmware : List Byte
  firmwareSig : List Byte
  /-- memory regions that train, bit k for region k -/
  regions : BitVec 12
  /-- CXL ports that train -/
  cxl : BitVec 2
  /-- lanes of chip-to-chip ports 0 to 11 and die-to-die links 12 to 17; 0 for down -/
  lanes : List Nat
  /-- the sensors' readings of the cores (18 R319) -/
  temps : List Byte
deriving DecidableEq, Repr

/-- An access by an agent of the host (spec 20 R346, R347): a read of n bytes, or a write of bytes. -/
inductive HostAccess where
  | read (addr : Nat) (n : Nat)
  | write (addr : Nat) (bytes : List Byte)
deriving DecidableEq, Repr

/-- The outcome of an IEEE 1588 exchange (spec 21 R378, R379): the measured offset from the master in ns, the port towards
the master, and the clock's state. -/
structure PtpResult where
  offset : Int
  port : BitVec 4
  state : BitVec 2
deriving DecidableEq, Repr

/-- What an event is about (log 2). An event whose input has another form does not take place. -/
inductive Input where
  | nothing
  /-- a group, core, die, ring, queue, team, port or Slate slot, by its index -/
  | index (n : Nat)
  /-- two of them: group and operation, team and slot, die and cluster, core and bank, group and counter -/
  | index2 (n m : Nat)
  /-- a group and a virtual address -/
  | walk (g : Nat) (va : W64)
  /-- SEQ of a fault record -/
  | seq (n : W32)
  /-- a GRIDID -/
  | grid (id : W32)
  /-- a register word: offset, core or slot, and value -/
  | word (n : Nat) (w : W64)
  /-- two register words -/
  | words (a b : W64)
  /-- a PECMD command -/
  | team (image : W64) (grid team : W32) (target : BitVec 16)
  /-- a context and the core that finds the fault -/
  | ctx (id : W32) (core : Nat)
  | found (f : BringupFound)
  | link (n : Nat) (state : BitVec 2) (lanes : BitVec 4)
  | host (a : HostAccess)
  /-- a port or an offset, and bytes -/
  | bytes (n : Nat) (bs : List Byte)
  | ptp (r : PtpResult)
  /-- SLATE_READ: slot, view, offset, length -/
  | slate (slot : Nat) (view : BitVec 16) (off len : Nat)
deriving DecidableEq, Repr

/-- What moves next (log 2): an event of the device or of the outside, the turn of a quadrant, elapsing cycles, or the progress of a
memory access. -/
inductive Move where
  | event (i : Instr) (a : Input)
  | quadrant (core quad : Nat)
  | elapse (n : Nat)
  /-- access k of an operation of a group is performed (04 R124) -/
  | perform (g op k : Nat)
deriving DecidableEq, Repr

/-- The whole device. -/
structure State where
  groups : List Group
  cur : Nat
  agenda : List Move
  input : Input
  freeCount : Nat
  teams : List Team
  grids : List Grid
  nextGrid : W32
  /-- teams dispatched and not admitted, as grid and index, in dispatch order (18 R316) -/
  waiting : List (W32 × W32)
  mem : Memory
  hostMem : Memory
  poison : List Nat
  cache : List CacheLine
  keyTags : List (Nat × Nat)
  /-- the two XTS keys of each slot, the data key in the low half (20 R356) -/
  keys : List (Option (BitVec 512))
  ctxs : List Ctx
  cue : Cue
  cores : List Core
  dies : List Die
  rings : List Ring
  slates : List (Option Slate)
  slateSeq : W64
  slateLost : W32
  tf : W64
  /-- ring whose freeze is being broadcast (21 R369) -/
  origin : Nat
  assembling : Bool
  coldPending : Option BringupFound
  reelen0 : W64
  reelen1 : W64
  cycle : Nat
  nstime : W64
  nsRem : Nat
  /-- NSTIME[39] as the last EPOCH records found it (21 R363, R366) -/
  epochBit : Bool
  timeOffset : W32
  timePort : BitVec 4
  timeState : BitVec 2
  slew : Int
  /-- nanoseconds since the last of the boundaries at which a correction is slewed in (21 R378) -/
  slewNs : Nat
  lqbase : W64
  lqPtr : List Nat
  /-- the grid last taken from each queue, by queue (18 R315) -/
  lqLast : List (Nat × W32)
  ctxtbl : W64
  tlbVA : W64
  tlbCtx : W32
  tlbPages : BitVec 24
  tlbDone : Bool
  frbase : W64
  frtail : W32
  frhead : W32
  frSeq : W32
  frRecs : List FaultRec
  pecmd : PeCmd
  bringState : BitVec 2
  bringStep : BitVec 4
  bringFail : Byte
  bringLog : List Byte
  /-- the firmware that the last cold reset verified (20 R355, R358) -/
  firmware : List Byte
  regions : BitVec 12
  mapPend : Bool
  mapRegion : BitVec 4
  /-- regions whose map-out waits for the one proposed (20 R352) -/
  mapWait : List (BitVec 4)
  /-- CXL event records sent to the host: base and bytes of each hot-remove (20 R352) -/
  cxlEvents : List (Nat × Nat)
  ceTimes : List (Nat × Nat × Nat)
  memwin : BitVec 10
  tokcfg : BitVec 16
  mapthr : W32
  ptpcfg : BitVec 24
  rasUe : List W32
  rasCe : List W32
  cxl : BitVec 2
  /-- CXL ports trained for CXL.io only (20 R358) -/
  cxlIo : BitVec 2
  /-- FAIL codes reported over MCTP/PLDM on the management sideband (20 R358) -/
  sideband : List Byte
  links : List Link
  keydata : List Byte
  keyStatus : Byte
  keySlot : Fin 64
  keyOp : BitVec 4
  keyDies : List Nat
  flash0 : FlashCopy
  flash1 : FlashCopy
  /-- the image being staged: a byte that has not come is none (20 R355) -/
  staged : List (Option Byte)
  imageSeq : W64
  /-- the applied image: whether it is copy 1, and its records (20 R358, R359) -/
  flashActive : Bool
  image : List (Nat × W64)
  ports : List Port
  mailbox : List Byte
  mailCode : MailCode
  /-- what the last read by a host agent returned (20 R346, R347) -/
  hostReply : List Byte
deriving DecidableEq, Repr

/-- A sampler at reset (spec 21 R384, R385). -/
def Sampler.reset : Sampler :=
  { en := false, allctx := false, period := 16, ctx := 0, base := 0, head := 0, tail := 0, drop := 0, next := 0,
    done := 0, last := List.replicate 4 255, staging := [] }

/-- A core at reset, with the bank roles an image without records gives (spec 20 R360). -/
def Core.reset : Core :=
  { bankrole := 0xAAAA555500000000, bankact := 0xAAAA555500000000, bankauto := 0x00FF0000, temp := 0, droops := [],
    hot := false, coolSince := none, fenced := false, start := 0, mxq := [], ntt := [],
    issued := List.replicate 4 none, smp := Sampler.reset, tlb1 := List.replicate 4 [], tlb2 := [], l1 := [] }

/-- A die at reset (spec 11 R264, 20 R360). -/
def Die.reset : Die :=
  { clusters := List.replicate 9 { token := false, taken := 0, lastMx := 0 }, lastGrant := none, released := [],
    bwb := List.replicate 5 0, bwWindow := 0, bwUsed := List.replicate 5 0, walks := (0, 0), decided := 0, sigdrop := 0, down := false }

/-- A ring at cold reset (spec 21 R361). -/
def Ring.reset : Ring :=
  { recs := [], frozen := false, lost := 0,
    mir := { pa := 0, en := false, size := 0, head := 0, tail := 0, drop := 0, staging := [] } }

/-- The Cue heap while no grid owns it: every generation counter is 1 (spec 05 R139, R149). -/
def Cue.reset : Cue :=
  { owner := none, dies := [], shards := List.replicate 32 { entries := [], gens := [] }, stamps := List.replicate 4 0,
    pops := [] }

/-- The device as power comes up, before the cold reset that starts the rings and brings it up: every register at the value
its table gives, or the default of R360 where that is "From image"; where the specification gives none, the value of the log
(4 to 8). -/
def State.reset : State :=
  { groups := [], cur := 0, agenda := [], input := .nothing, freeCount := 0, teams := [], grids := [], nextGrid := 1, waiting := [],
    mem := [], hostMem := [], poison := [], cache := [], keyTags := [], keys := List.replicate 64 none,
    ctxs := [], cue := Cue.reset, cores := List.replicate 144 Core.reset, dies := List.replicate 4 Die.reset,
    rings := List.replicate 148 Ring.reset, slates := List.replicate 8 none, slateSeq := 1, slateLost := 0, tf := 0, origin := 0,
    assembling := false, coldPending := none, reelen0 := 0xFFFFFFFFFFFFFFFF, reelen1 := 0xFFFFFFFFFFFFFFFF,
    cycle := 0, nstime := 0, nsRem := 0, epochBit := false, timeOffset := 0, timePort := 0, timeState := 0, slew := 0, slewNs := 0,
    lqbase := 0, lqPtr := List.replicate 8 255, lqLast := [], ctxtbl := 0, tlbVA := 0, tlbCtx := 0, tlbPages := 0, tlbDone := true,
    frbase := 0, frtail := 0, frhead := 0, frSeq := 0, frRecs := [],
    pecmd := { image := 0, grid := 0, team := 0, target := 0, status := 0, op := 0 },
    bringState := 0, bringStep := 0, bringFail := 0, bringLog := [], firmware := [], regions := 0, mapPend := false, mapRegion := 0, mapWait := [], cxlEvents := [],
    ceTimes := [], memwin := 0, tokcfg := 0x6666, mapthr := 0x1000, ptpcfg := 0x808000,
    rasUe := List.replicate 12 0, rasCe := List.replicate 12 0, cxl := 0, cxlIo := 0, sideband := [],
    links := List.replicate 18 { lanes := 0, state := 0 }, keydata := List.replicate 64 0, keyStatus := 0, keySlot := 0,
    keyOp := 0, keyDies := [], flash0 := { bytes := [] }, flash1 := { bytes := [] }, staged := [], imageSeq := 0, flashActive := false, image := [],
    ports := List.replicate 12 { out := [], inn := [] }, mailbox := [], mailCode := .success, hostReply := [] }

end Sys2Proof.Machine
end

