-- ==== Sys2Proof/Machine/Aes.lean ====
section
/-! DEFINITION. AES-256 (FIPS 197) and its XTS mode (IEEE 1619), which the specification names for device memory (spec 00 R5, 04
R117). Blocks and keys are lists of bytes, as numbers. -/

namespace Sys2Proof.Machine

/-- The S-box: entry b at bits 8b. -/
def aesSbox : BitVec 2048 :=
  0x16bb54b00f2d99416842e6bf0d89a18cdf2855cee9871e9b948ed9691198f8e1#256
    ++ 0x9e1dc186b95735610ef6034866b53e708a8bbd4b1f74dde8c6b4a61c2e2578ba#256
    ++ 0x08ae7a65eaf4566ca94ed58d6d37c8e779e4959162acd3c25c2406490a3a32e0#256
    ++ 0xdb0b5ede14b8ee4688902a22dc4f816073195d643d7ea7c41744975fec130ccd#256
    ++ 0xd2f3ff1021dab6bcf5389d928f40a351a89f3c507f02f94585334d43fbaaefd0#256
    ++ 0xcf584c4a39becb6a5bb1fc20ed00d153842fe329b3d63b52a05a6e1b1a2c8309#256
    ++ 0x75b227ebe28012079a059618c323c7041531d871f1e5a534ccf73f362693fdb7#256
    ++ 0xc072a49cafa2d4adf04759fa7dc982ca76abd7fe2b670130c56f6bf27b777c63#256

/-- The inverse S-box. -/
def aesInvSbox : BitVec 2048 :=
  0x7d0c2155631469e126d677ba7e042b17619953833cbbebc8b0f52aae4d3be0a0#256
    ++ 0xef9cc9939f7ae52d0d4ab519a97f51605fec8027591012b131c7078833a8dd1f#256
    ++ 0xf45acd78fec0db9a2079d2c64b3e56fc1bbe18aa0e62b76f89c5291d711af147#256
    ++ 0x6edf751ce837f9e28535ade72274ac9673e6b4f0cecff297eadc674f4111913a#256
    ++ 0x6b8a130103bdafc1020f3fca8f1e2cd00645b3b80558e4f70ad3bc8c00abd890#256
    ++ 0x849d8da75746155edab9edfd5048706c92b6655dcc5ca4d41698688664f6f872#256
    ++ 0x25d18b6d49a25b76b224d92866a12e084ec3fa420b954cee3d23c2a632947b54#256
    ++ 0xcbe9dec444438e3487ff2f9b8239e37cfbd7f3819ea340bf38a53630d56a0952#256

/-- An entry of a box. -/
def boxAt (t : BitVec 2048) (b : Nat) : Nat := t.toNat / 2 ^ (8 * b) % 256

/-- Multiplication by x in the field of AES. -/
def aesXtime (b : Nat) : Nat := if b < 128 then 2 * b else (2 * b) ^^^ 0x11B

/-- A product in the field of AES, over the low n bits of the second factor. -/
def aesMul (a b : Nat) : Nat → Nat
  | 0 => 0
  | n + 1 => (if b % 2 = 1 then a else 0) ^^^ aesMul (aesXtime a) (b / 2) n

/-- Bytes added. -/
def xorBytes (a b : List Nat) : List Nat := a.zipWith (· ^^^ ·) b

/-- Words of the key schedule after the key's own, latest first: n more from word number i on. -/
def keyWords (ws : List (List Nat)) (i rcon : Nat) : Nat → List (List Nat)
  | 0 => ws
  | n + 1 =>
    let t := ws.headD []
    let t1 := if i % 8 = 0 then xorBytes ((t.drop 1 ++ t.take 1).map (boxAt aesSbox)) [rcon, 0, 0, 0]
      else if i % 8 = 4 then t.map (boxAt aesSbox) else t
    keyWords (xorBytes ((ws[7]?).getD []) t1 :: ws) (i + 1) (if i % 8 = 0 then aesXtime rcon else rcon) n

/-- The 15 round keys of a key of 32 bytes. -/
def roundKeys (key : List Nat) : List (List Nat) :=
  let ws := (keyWords ((List.range 8).map fun j => (key.drop (28 - 4 * j)).take 4) 8 1 52).reverse
  (List.range 15).map fun r => ((ws.drop (4 * r)).take 4).flatten

/-- Bytes of a block in another order. -/
def permute (f : Nat → Nat) (b : List Nat) : List Nat := (List.range 16).map fun i => (b[f i]?).getD 0

/-- The rows shifted, and shifted back: byte i is row i mod 4 of column i / 4. -/
def shiftRows (b : List Nat) : List Nat := permute (fun i => (i + 4 * (i % 4)) % 16) b
@[inherit_doc shiftRows]
def shiftBack (b : List Nat) : List Nat := permute (fun i => (i + 12 * (i % 4)) % 16) b

/-- Each column multiplied by the circulant matrix of four coefficients. -/
def mixColumns (c : List Nat) (b : List Nat) : List Nat :=
  (List.range 16).map fun i =>
    (List.range 4).foldl (fun acc k =>
      acc ^^^ aesMul ((b.drop (4 * (i / 4) + k)).headD 0) ((c.drop ((k + 4 - i % 4) % 4)).headD 0) 4) 0

/-- One block encrypted. -/
def aesEncrypt (key block : List Nat) : List Nat :=
  let ks := roundKeys key
  let b := (List.range 13).foldl (fun b r =>
    xorBytes (mixColumns [2, 3, 1, 1] (shiftRows (b.map (boxAt aesSbox)))) ((ks[r + 1]?).getD [])) (xorBytes block (ks.headD []))
  xorBytes (shiftRows (b.map (boxAt aesSbox))) ((ks[14]?).getD [])

/-- One block decrypted. -/
def aesDecrypt (key block : List Nat) : List Nat :=
  let ks := roundKeys key
  let b := (List.range 13).foldl (fun b r =>
    mixColumns [14, 11, 13, 9] (xorBytes ((shiftBack b).map (boxAt aesInvSbox)) ((ks[13 - r]?).getD [])))
    (xorBytes block ((ks[14]?).getD []))
  xorBytes ((shiftBack b).map (boxAt aesInvSbox)) (ks.headD [])

/-- A tweak multiplied by x: a number of 128 bits, byte 0 lowest. -/
def xtsNext (t : Nat) : Nat := if t < 2 ^ 127 then 2 * t else (2 * t - 2 ^ 128) ^^^ 0x87

/-- The bytes of a number, byte 0 lowest. -/
def natBytes : Nat → Nat → List Nat
  | 0, _ => []
  | n + 1, x => x % 256 :: natBytes n (x / 256)

/-- The number that bytes stand for. -/
def bytesNat (l : List Nat) : Nat := l.foldr (fun b acc => b + 256 * acc) 0

/-- The tweak of block j of data unit i under the second key. -/
def xtsTweak (key : List Nat) (i j : Nat) : List Nat :=
  natBytes 16 ((List.range j).foldl (fun t _ => xtsNext t) (bytesNat (aesEncrypt key (natBytes 16 i))))

/-- The two XTS keys of a slot, the data key first. -/
def xtsKeys (k : BitVec 512) : List Nat × List Nat := (natBytes 32 k.toNat, natBytes 32 (k.toNat / 2 ^ 256))

/-- A block of 16 bytes as XTS encrypts it; where data units lie in memory is not given (log 5). -/
def xtsEncrypt (k : BitVec 512) (block : Nat) (b : List Nat) : List Nat :=
  let t := xtsTweak (xtsKeys k).2 (Config.xtsUnit block) (Config.xtsIndex block)
  xorBytes t (aesEncrypt (xtsKeys k).1 (xorBytes t b))

/-- A block of 16 bytes as XTS decrypts it. -/
def xtsDecrypt (k : BitVec 512) (block : Nat) (b : List Nat) : List Nat :=
  let t := xtsTweak (xtsKeys k).2 (Config.xtsUnit block) (Config.xtsIndex block)
  xorBytes t (aesDecrypt (xtsKeys k).1 (xorBytes t b))

end Sys2Proof.Machine
end

