-- ==== Sys2Proof/Decode.lean ====
section
/-! DEFINITION. Decoding and encoding of instructions (spec 06 R153 to R173, 07 R178, R179). -/

namespace Sys2Proof

/-- The source a 10-bit code names (spec 06 R158). -/
def Src.ofCode (c : BitVec 10) : Src :=
  let n := c.toNat
  if h : n < 256 then .v ⟨n, h⟩
  else if n < 384 then .s (Fin.ofNat 128 (n - 256))
  else if n < 416 then .int (Fin.ofNat 32 (n - 384))
  else if n < 432 then .neg (Fin.ofNat 16 (n - 416))
  else if n < 440 then .flt (Fin.ofNat 8 (n - 432))
  else if n = 440 then .lane
  else if n = 448 then .lit
  else if 512 ≤ n && n < 516 then .latch (Fin.ofNat 4 (n - 512))
  else .rsv c

/-- The code of a source (spec 06 R158). -/
def Src.toCode : Src → BitVec 10
  | .v n => BitVec.ofNat 10 n.val
  | .s n => BitVec.ofNat 10 (256 + n.val)
  | .int k => BitVec.ofNat 10 (384 + k.val)
  | .neg k => BitVec.ofNat 10 (416 + k.val)
  | .flt k => BitVec.ofNat 10 (432 + k.val)
  | .lane => 440
  | .lit => 448
  | .latch n => BitVec.ofNat 10 (512 + n.val)
  | .rsv c => c

/-- The destination a 9-bit code names (spec 06 R161). -/
def Dst.ofCode (c : BitVec 9) : Dst :=
  let n := c.toNat
  if h : n < 256 then .v ⟨n, h⟩
  else if n < 384 then .s (Fin.ofNat 128 (n - 256))
  else if n < 432 then .p (Fin.ofNat 48 (n - 384))
  else if n < 440 then .a (Fin.ofNat 8 (n - 432))
  else if n = 511 then .none
  else .rsv c

/-- The code of a destination (spec 06 R161). -/
def Dst.toCode : Dst → BitVec 9
  | .v n => BitVec.ofNat 9 n.val
  | .s n => BitVec.ofNat 9 (256 + n.val)
  | .p n => BitVec.ofNat 9 (384 + n.val)
  | .a n => BitVec.ofNat 9 (432 + n.val)
  | .none => 511
  | .rsv c => c

/-- A scalar destination: the form of BLEN that reads a tag (spec 09 R231). -/
def Dst.isScalar : Dst → Bool
  | .s _ => true
  | _ => false

/-- The length code of an extension (spec 06 R153). -/
def Ext.lenCode : Ext → BitVec 2
  | .none => 0
  | .lit _ => 1
  | .ctl _ _ => 2

/-- The bytes of an instruction with an extension (spec 06 R177, ilen). -/
def Ext.bytes : Ext → Nat
  | .none => 8
  | .lit _ => 12
  | .ctl _ _ => 16

/-- The bits above the first word (spec 06 R157). -/
def Ext.bits : Ext → BitVec 192
  | .none => 0
  | .lit w => (0 : BitVec 160) ++ w
  | .ctl sc c => (0 : BitVec 128) ++ (c ++ sc.toCode)

/-- Why a word is no instruction though its OPC is assigned. -/
inductive Reject where
  /-- a SUB that the OPC does not assign: ILLEGAL 0x05 (spec 07 R179) -/
  | reservedSub
  /-- length code 11 without OPC 0xCB, or OPC 0xCB with another length code: ILLEGAL 0x06 (spec 07 R183) -/
  | badLength
deriving DecidableEq, Repr

/-- The OPC values that the map leaves unassigned (spec 07 R178). -/
def reservedOpcode (opc : Nat) : Bool :=
  opc == 0x00 || (0x1D ≤ opc && opc ≤ 0x1F) || (0x3C ≤ opc && opc ≤ 0x3F) || (0x49 ≤ opc && opc ≤ 0x4F) || (0x6B ≤ opc && opc ≤ 0x6F) || (0x8A ≤ opc && opc ≤ 0x8F) || opc == 0x9F || (0xBA ≤ opc && opc ≤ 0xBF) || (0xCC ≤ opc && opc ≤ 0xCF) || (0xDC ≤ opc && opc ≤ 0xFF)

/-- The form that OPC and SUB select (spec 07 R178, R179). BLEN with a scalar destination reads a tag (09 R231): with none it
is the vector form, as DST alone tells the two apart (log 72). WAITC with MOD.SC is the sc fence (06 R169). -/
def formOf (opc sub : Nat) (e : Enc) : Option Instr :=
  match opc, sub with
  | 0x01, 0 => some (.nop e)
  | 0x02, 0 => some (.exit e)
  | 0x03, 0 => some (.bra e)
  | 0x04, 0 => some (.brz e)
  | 0x05, 0 => some (.brnz e)
  | 0x06, 0 => some (.call e)
  | 0x07, 0 => some (.calli e)
  | 0x08, 0 => some (.ret e)
  | 0x09, 0 => some (.jmpi e)
  | 0x0A, 0 => some (.skipz e)
  | 0x0B, 0 => some (.divb e)
  | 0x0C, 0 => some (.join e)
  | 0x0D, 0 => some (.yield e)
  | 0x0E, 0 => some (.bar e)
  | 0x0F, 0 => some (.bara e)
  | 0x10, 0 => some (.barw e)
  | 0x11, 0 => some (.sleep e)
  | 0x12, 0 => some (.prio e)
  | 0x13, 0 => some (.getid e)
  | 0x14, 0 => some (.csrr e)
  | 0x15, 0 => some (.csrw e)
  | 0x16, 0 => some (.csrxSwap e)
  | 0x16, 1 => some (.csrxSet e)
  | 0x16, 2 => some (.csrxClear e)
  | 0x17, 0 => some (.lpcr e)
  | 0x18, 0 => some (.trap e)
  | 0x19, 0 => some (.eret e)
  | 0x1A, 0 => some (.svc e)
  | 0x1B, 0 => some (.mark e)
  | 0x1C, 0 => some (.tsrd e)
  | 0x20, 0 => some (.smov e)
  | 0x21, 0 => some (.sadd e)
  | 0x22, 0 => some (.ssub e)
  | 0x23, 0 => some (.smul e)
  | 0x24, 0 => some (.smulh e)
  | 0x25, 0 => some (.sdiv e)
  | 0x26, 0 => some (.srem e)
  | 0x27, 0 => some (.sand e)
  | 0x28, 0 => some (.sor e)
  | 0x29, 0 => some (.sxor e)
  | 0x2A, 0 => some (.sshl e)
  | 0x2B, 0 => some (.sshr e)
  | 0x2C, 0 => some (.ssar e)
  | 0x2D, 0 => some (.smin e)
  | 0x2E, 0 => some (.smax e)
  | 0x2F, 0 => some (.scmp e)
  | 0x30, 0 => some (.ssel e)
  | 0x31, 0 => some (.sbfe e)
  | 0x32, 0 => some (.sbfi e)
  | 0x33, 0 => some (.spopc e)
  | 0x34, 0 => some (.sclz e)
  | 0x35, 0 => some (.mand e)
  | 0x36, 0 => some (.mor e)
  | 0x37, 0 => some (.mxor e)
  | 0x38, 0 => some (.mandn e)
  | 0x39, 0 => some (.mpopc e)
  | 0x3A, 0 => some (.mffs e)
  | 0x3B, 0 => some (.mbit e)
  | 0x40, 0 => some (.pand e)
  | 0x41, 0 => some (.por e)
  | 0x42, 0 => some (.pxor e)
  | 0x43, 0 => some (.pnot e)
  | 0x44, 0 => some (.pmov e)
  | 0x45, 0 => some (.ptom e)
  | 0x46, 0 => some (.mtop e)
  | 0x47, 0 => some (.pany e)
  | 0x48, 0 => some (.pall e)
  | 0x50, 0 => some (.vmov e)
  | 0x51, 0 => some (.vadd e)
  | 0x52, 0 => some (.vsub e)
  | 0x53, 0 => some (.vaddc e)
  | 0x54, 0 => some (.vsubb e)
  | 0x55, 0 => some (.vmul e)
  | 0x56, 0 => some (.vmulh e)
  | 0x57, 0 => some (.vmad e)
  | 0x58, 0 => some (.vmadw e)
  | 0x59, 0 => some (.vabsd e)
  | 0x5A, 0 => some (.vand e)
  | 0x5B, 0 => some (.vor e)
  | 0x5C, 0 => some (.vxor e)
  | 0x5D, 0 => some (.vnot e)
  | 0x5E, 0 => some (.vshl e)
  | 0x5F, 0 => some (.vshr e)
  | 0x60, 0 => some (.vsar e)
  | 0x61, 0 => some (.vrot e)
  | 0x62, 0 => some (.vmin e)
  | 0x63, 0 => some (.vmax e)
  | 0x64, 0 => some (.vclz e)
  | 0x65, 0 => some (.vpopc e)
  | 0x66, 0 => some (.vbfe e)
  | 0x67, 0 => some (.vbfi e)
  | 0x68, 0 => some (.vcmp e)
  | 0x69, 0 => some (.vsel e)
  | 0x6A, 0 => some (.vcvt e)
  | 0x70, 0 => some (.fadd e)
  | 0x71, 0 => some (.fsub e)
  | 0x72, 0 => some (.fmul e)
  | 0x73, 0 => some (.ffma e)
  | 0x74, 0 => some (.fmin e)
  | 0x75, 0 => some (.fmax e)
  | 0x76, 0 => some (.fcmp e)
  | 0x77, 0 => some (.fclass e)
  | 0x78, 0 => some (.fdiv e)
  | 0x79, 0 => some (.fsqrt e)
  | 0x7A, 0 => some (.frcp e)
  | 0x7B, 0 => some (.frsq e)
  | 0x7C, 0 => some (.fexp2 e)
  | 0x7D, 0 => some (.flog2 e)
  | 0x7E, 0 => some (.fsin e)
  | 0x7F, 0 => some (.fcos e)
  | 0x80, 0 => some (.fcvt e)
  | 0x81, 0 => some (.frnd e)
  | 0x82, 0 => some (.fscl e)
  | 0x83, 0 => some (.vshufIdx e)
  | 0x83, 1 => some (.vshufXor e)
  | 0x83, 2 => some (.vshufUp e)
  | 0x83, 3 => some (.vshufDown e)
  | 0x84, 0 => some (.vbcast e)
  | 0x85, 0 => some (.vredAdd e)
  | 0x85, 1 => some (.vredMin e)
  | 0x85, 2 => some (.vredMax e)
  | 0x85, 3 => some (.vredAnd e)
  | 0x85, 4 => some (.vredOr e)
  | 0x85, 5 => some (.vredXor e)
  | 0x86, 0 => some (.vscanAdd e)
  | 0x86, 1 => some (.vscanMin e)
  | 0x86, 2 => some (.vscanMax e)
  | 0x86, 3 => some (.vscanAnd e)
  | 0x86, 4 => some (.vscanOr e)
  | 0x86, 5 => some (.vscanXor e)
  | 0x87, 0 => some (.vrotl e)
  | 0x88, 0 => some (.rvsend e)
  | 0x89, 0 => some (.rvrecv e)
  | 0x90, 0 => some (.badd e)
  | 0x91, 0 => some (.bsub e)
  | 0x92, 0 => some (.bneg e)
  | 0x93, 0 => some (.bcmp e)
  | 0x94, 0 => some (.bshl e)
  | 0x95, 0 => some (.bshr e)
  | 0x96, 0 => some (.bmull e)
  | 0x97, 0 => some (.bmulh e)
  | 0x98, 0 => some (.bmuls e)
  | 0x99, 0 => some (.bdivqr e)
  | 0x9A, 0 => some (if e.dst.isScalar then .blenTag e else .blenResize e)
  | 0x9B, 0 => some (.bnorm e)
  | 0x9C, 0 => some (.bspill e)
  | 0x9D, 0 => some (.bfill e)
  | 0x9E, 0 => some (.cres e)
  | 0xA0, 0 => some (.madd e)
  | 0xA1, 0 => some (.msub e)
  | 0xA2, 0 => some (.mmul e)
  | 0xA3, 0 => some (.mred e)
  | 0xA4, 0 => some (.ld e)
  | 0xA5, 0 => some (.ldu e)
  | 0xA6, 0 => some (.st e)
  | 0xA7, 0 => some (.ldb e)
  | 0xA8, 0 => some (.stb e)
  | 0xA9, 0 => some (.atomAdd e)
  | 0xA9, 1 => some (.atomAnd e)
  | 0xA9, 2 => some (.atomOr e)
  | 0xA9, 3 => some (.atomXor e)
  | 0xA9, 4 => some (.atomMin e)
  | 0xA9, 5 => some (.atomMax e)
  | 0xA9, 6 => some (.atomExch e)
  | 0xA9, 7 => some (.atomCas e)
  | 0xAA, 0 => some (.atomcCas e)
  | 0xAA, 1 => some (.atomXadd e)
  | 0xAB, 0 => some (.redAdd e)
  | 0xAB, 1 => some (.redAnd e)
  | 0xAB, 2 => some (.redOr e)
  | 0xAB, 3 => some (.redXor e)
  | 0xAB, 4 => some (.redMin e)
  | 0xAB, 5 => some (.redMax e)
  | 0xAC, 0 => some (if e.mod.getLsbD 7 then .waitcScFence e else .waitc e)
  | 0xAD, 0 => some (.pref e)
  | 0xAE, 0 => some (.cflush e)
  | 0xAF, 0 => some (.cinv e)
  | 0xB0, 0 => some (.xcopy e)
  | 0xB1, 0 => some (.xgath e)
  | 0xB2, 0 => some (.xchain e)
  | 0xB3, 0 => some (.xreg e)
  | 0xB4, 0 => some (.qpush e)
  | 0xB5, 0 => some (.qpop e)
  | 0xB6, 0 => some (.halloc e)
  | 0xB7, 0 => some (.hfree e)
  | 0xB8, 0 => some (.rgive e)
  | 0xB9, 0 => some (.rclaim e)
  | 0xC0, 0 => some (.mxmac e)
  | 0xC1, 0 => some (.mxpair e)
  | 0xC2, 0 => some (.mxrd e)
  | 0xC3, 0 => some (.mxwr e)
  | 0xC4, 0 => some (.mxz e)
  | 0xC5, 0 => some (.boomld e)
  | 0xC6, 0 => some (.bmul e)
  | 0xC7, 0 => some (.ntt e)
  | 0xC8, 0 => some (.intt e)
  | 0xC9, 0 => some (.kswitch e)
  | 0xCA, 0 => some (.xcrt e)
  | 0xD0, 0 => some (.cuepush e)
  | 0xD1, 0 => some (.cuepop e)
  | 0xD2, 0 => some (.gainadd e)
  | 0xD3, 0 => some (.gainset e)
  | 0xD4, 0 => some (.resadd e)
  | 0xD5, 0 => some (.grow e)
  | 0xD6, 0 => some (.sklook e)
  | 0xD7, 0 => some (.skld e)
  | 0xD8, 0 => some (.skref e)
  | 0xD9, 0 => some (.skunref e)
  | 0xDA, 0 => some (.skcopy e)
  | 0xDB, 0 => some (.rootcas e)
  | _, _ => none

/-- The fields of the first word and what follows it, at a length code below 11 (spec 06 R156, R157). -/
def encOf (w : BitVec 256) : Enc :=
  { pg := (w.extractLsb' 16 6).toFin, pn := w.getLsbD 22, ch := w.getLsbD 15, nw := w.getLsbD 14, u := w.getLsbD 13,
    dst := Dst.ofCode (w.extractLsb' 23 9), sa := Src.ofCode (w.extractLsb' 32 10), sb := Src.ofCode (w.extractLsb' 42 10),
    mod := w.extractLsb' 52 12,
    ext := match (w.extractLsb' 0 2).toNat with
      | 0 => .none
      | 1 => .lit (w.extractLsb' 64 32)
      | _ => .ctl (Src.ofCode (w.extractLsb' 64 10)) (w.extractLsb' 74 54) }

/-- The fields of the loop-nest form (spec 06 R173). -/
def nestOf (w : BitVec 256) : NestEnc :=
  { stride := w.extractLsb' 106 150, extent := w.extractLsb' 46 60, abs := w.getLsbD 45, ds := w.getLsbD 44,
    bsc := w.getLsbD 43, drd := w.getLsbD 42, bbase := (w.extractLsb' 35 7).toFin, abase := (w.extractLsb' 28 7).toFin,
    dbase := (w.extractLsb' 21 7).toFin, etype := w.extractLsb' 16 5, eop := w.extractLsb' 10 6 }

/-- The instruction that stands in w, whose bit 0 is the least significant bit of its first byte (spec 06 R153 to R173).
Bits above its length are not read. -/
def decode (w : BitVec 256) : Except Reject Instr :=
  let opc := (w.extractLsb' 2 8).toNat
  let sub := (w.extractLsb' 10 3).toNat
  let len := (w.extractLsb' 0 2).toNat
  if reservedOpcode opc then .ok (.reservedOpc (w.extractLsb' 0 64))
  else if opc = 0xCB then if len = 3 then .ok (.lnest (nestOf w)) else .error .badLength
  else
    match formOf opc sub (encOf w) with
    | none => .error .reservedSub
    | some i => if len = 3 then .error .badLength else .ok i

/-- The bytes of the instruction in w (spec 06 R177, ilen). -/
def ilen (w : BitVec 256) : Nat :=
  match (w.extractLsb' 0 2).toNat with
  | 0 => 8
  | 1 => 12
  | 2 => 16
  | _ => 32

/-- OPC, SUB and fields of a form with a first word (spec 07 R178, R179); none for the loop nest, a reserved OPC and the
device's events. -/
def Instr.code : Instr → Option (Nat × Nat × Enc)
  | .nop e => some (0x01, 0, e)
  | .exit e => some (0x02, 0, e)
  | .bra e => some (0x03, 0, e)
  | .brz e => some (0x04, 0, e)
  | .brnz e => some (0x05, 0, e)
  | .call e => some (0x06, 0, e)
  | .calli e => some (0x07, 0, e)
  | .ret e => some (0x08, 0, e)
  | .jmpi e => some (0x09, 0, e)
  | .skipz e => some (0x0A, 0, e)
  | .divb e => some (0x0B, 0, e)
  | .join e => some (0x0C, 0, e)
  | .yield e => some (0x0D, 0, e)
  | .bar e => some (0x0E, 0, e)
  | .bara e => some (0x0F, 0, e)
  | .barw e => some (0x10, 0, e)
  | .sleep e => some (0x11, 0, e)
  | .prio e => some (0x12, 0, e)
  | .getid e => some (0x13, 0, e)
  | .csrr e => some (0x14, 0, e)
  | .csrw e => some (0x15, 0, e)
  | .csrxSwap e => some (0x16, 0, e)
  | .csrxSet e => some (0x16, 1, e)
  | .csrxClear e => some (0x16, 2, e)
  | .lpcr e => some (0x17, 0, e)
  | .trap e => some (0x18, 0, e)
  | .svc e => some (0x1A, 0, e)
  | .eret e => some (0x19, 0, e)
  | .mark e => some (0x1B, 0, e)
  | .tsrd e => some (0x1C, 0, e)
  | .smov e => some (0x20, 0, e)
  | .sadd e => some (0x21, 0, e)
  | .ssub e => some (0x22, 0, e)
  | .smul e => some (0x23, 0, e)
  | .smulh e => some (0x24, 0, e)
  | .sdiv e => some (0x25, 0, e)
  | .srem e => some (0x26, 0, e)
  | .sand e => some (0x27, 0, e)
  | .sor e => some (0x28, 0, e)
  | .sxor e => some (0x29, 0, e)
  | .sshl e => some (0x2A, 0, e)
  | .sshr e => some (0x2B, 0, e)
  | .ssar e => some (0x2C, 0, e)
  | .smin e => some (0x2D, 0, e)
  | .smax e => some (0x2E, 0, e)
  | .scmp e => some (0x2F, 0, e)
  | .ssel e => some (0x30, 0, e)
  | .sbfe e => some (0x31, 0, e)
  | .sbfi e => some (0x32, 0, e)
  | .spopc e => some (0x33, 0, e)
  | .sclz e => some (0x34, 0, e)
  | .mand e => some (0x35, 0, e)
  | .mor e => some (0x36, 0, e)
  | .mxor e => some (0x37, 0, e)
  | .mandn e => some (0x38, 0, e)
  | .mpopc e => some (0x39, 0, e)
  | .mffs e => some (0x3A, 0, e)
  | .mbit e => some (0x3B, 0, e)
  | .pand e => some (0x40, 0, e)
  | .por e => some (0x41, 0, e)
  | .pxor e => some (0x42, 0, e)
  | .pnot e => some (0x43, 0, e)
  | .pmov e => some (0x44, 0, e)
  | .ptom e => some (0x45, 0, e)
  | .mtop e => some (0x46, 0, e)
  | .pany e => some (0x47, 0, e)
  | .pall e => some (0x48, 0, e)
  | .vmov e => some (0x50, 0, e)
  | .vadd e => some (0x51, 0, e)
  | .vsub e => some (0x52, 0, e)
  | .vaddc e => some (0x53, 0, e)
  | .vsubb e => some (0x54, 0, e)
  | .vmul e => some (0x55, 0, e)
  | .vmulh e => some (0x56, 0, e)
  | .vmad e => some (0x57, 0, e)
  | .vmadw e => some (0x58, 0, e)
  | .vabsd e => some (0x59, 0, e)
  | .vand e => some (0x5A, 0, e)
  | .vor e => some (0x5B, 0, e)
  | .vxor e => some (0x5C, 0, e)
  | .vnot e => some (0x5D, 0, e)
  | .vshl e => some (0x5E, 0, e)
  | .vshr e => some (0x5F, 0, e)
  | .vsar e => some (0x60, 0, e)
  | .vrot e => some (0x61, 0, e)
  | .vmin e => some (0x62, 0, e)
  | .vmax e => some (0x63, 0, e)
  | .vclz e => some (0x64, 0, e)
  | .vpopc e => some (0x65, 0, e)
  | .vbfe e => some (0x66, 0, e)
  | .vbfi e => some (0x67, 0, e)
  | .vcmp e => some (0x68, 0, e)
  | .vsel e => some (0x69, 0, e)
  | .vcvt e => some (0x6A, 0, e)
  | .fadd e => some (0x70, 0, e)
  | .fsub e => some (0x71, 0, e)
  | .fmul e => some (0x72, 0, e)
  | .ffma e => some (0x73, 0, e)
  | .fmin e => some (0x74, 0, e)
  | .fmax e => some (0x75, 0, e)
  | .fcmp e => some (0x76, 0, e)
  | .fclass e => some (0x77, 0, e)
  | .fdiv e => some (0x78, 0, e)
  | .fsqrt e => some (0x79, 0, e)
  | .frcp e => some (0x7A, 0, e)
  | .frsq e => some (0x7B, 0, e)
  | .fexp2 e => some (0x7C, 0, e)
  | .flog2 e => some (0x7D, 0, e)
  | .fsin e => some (0x7E, 0, e)
  | .fcos e => some (0x7F, 0, e)
  | .fcvt e => some (0x80, 0, e)
  | .frnd e => some (0x81, 0, e)
  | .fscl e => some (0x82, 0, e)
  | .vshufIdx e => some (0x83, 0, e)
  | .vshufXor e => some (0x83, 1, e)
  | .vshufUp e => some (0x83, 2, e)
  | .vshufDown e => some (0x83, 3, e)
  | .vbcast e => some (0x84, 0, e)
  | .vrotl e => some (0x87, 0, e)
  | .vredAdd e => some (0x85, 0, e)
  | .vredMin e => some (0x85, 1, e)
  | .vredMax e => some (0x85, 2, e)
  | .vredAnd e => some (0x85, 3, e)
  | .vredOr e => some (0x85, 4, e)
  | .vredXor e => some (0x85, 5, e)
  | .vscanAdd e => some (0x86, 0, e)
  | .vscanMin e => some (0x86, 1, e)
  | .vscanMax e => some (0x86, 2, e)
  | .vscanAnd e => some (0x86, 3, e)
  | .vscanOr e => some (0x86, 4, e)
  | .vscanXor e => some (0x86, 5, e)
  | .rvsend e => some (0x88, 0, e)
  | .rvrecv e => some (0x89, 0, e)
  | .badd e => some (0x90, 0, e)
  | .bsub e => some (0x91, 0, e)
  | .bneg e => some (0x92, 0, e)
  | .bcmp e => some (0x93, 0, e)
  | .bshl e => some (0x94, 0, e)
  | .bshr e => some (0x95, 0, e)
  | .bmull e => some (0x96, 0, e)
  | .bmulh e => some (0x97, 0, e)
  | .bmuls e => some (0x98, 0, e)
  | .bdivqr e => some (0x99, 0, e)
  | .blenTag e => some (0x9A, 0, e)
  | .blenResize e => some (0x9A, 0, e)
  | .bnorm e => some (0x9B, 0, e)
  | .bspill e => some (0x9C, 0, e)
  | .bfill e => some (0x9D, 0, e)
  | .cres e => some (0x9E, 0, e)
  | .madd e => some (0xA0, 0, e)
  | .msub e => some (0xA1, 0, e)
  | .mmul e => some (0xA2, 0, e)
  | .mred e => some (0xA3, 0, e)
  | .ld e => some (0xA4, 0, e)
  | .ldu e => some (0xA5, 0, e)
  | .st e => some (0xA6, 0, e)
  | .ldb e => some (0xA7, 0, e)
  | .stb e => some (0xA8, 0, e)
  | .atomAdd e => some (0xA9, 0, e)
  | .atomAnd e => some (0xA9, 1, e)
  | .atomOr e => some (0xA9, 2, e)
  | .atomXor e => some (0xA9, 3, e)
  | .atomMin e => some (0xA9, 4, e)
  | .atomMax e => some (0xA9, 5, e)
  | .atomExch e => some (0xA9, 6, e)
  | .atomCas e => some (0xA9, 7, e)
  | .atomcCas e => some (0xAA, 0, e)
  | .atomXadd e => some (0xAA, 1, e)
  | .redAdd e => some (0xAB, 0, e)
  | .redAnd e => some (0xAB, 1, e)
  | .redOr e => some (0xAB, 2, e)
  | .redXor e => some (0xAB, 3, e)
  | .redMin e => some (0xAB, 4, e)
  | .redMax e => some (0xAB, 5, e)
  | .waitc e => some (0xAC, 0, e)
  | .waitcScFence e => some (0xAC, 0, e)
  | .pref e => some (0xAD, 0, e)
  | .cflush e => some (0xAE, 0, e)
  | .cinv e => some (0xAF, 0, e)
  | .xcopy e => some (0xB0, 0, e)
  | .xreg e => some (0xB3, 0, e)
  | .xgath e => some (0xB1, 0, e)
  | .xchain e => some (0xB2, 0, e)
  | .qpush e => some (0xB4, 0, e)
  | .qpop e => some (0xB5, 0, e)
  | .halloc e => some (0xB6, 0, e)
  | .hfree e => some (0xB7, 0, e)
  | .rgive e => some (0xB8, 0, e)
  | .rclaim e => some (0xB9, 0, e)
  | .mxmac e => some (0xC0, 0, e)
  | .mxpair e => some (0xC1, 0, e)
  | .mxrd e => some (0xC2, 0, e)
  | .mxwr e => some (0xC3, 0, e)
  | .mxz e => some (0xC4, 0, e)
  | .boomld e => some (0xC5, 0, e)
  | .bmul e => some (0xC6, 0, e)
  | .ntt e => some (0xC7, 0, e)
  | .intt e => some (0xC8, 0, e)
  | .kswitch e => some (0xC9, 0, e)
  | .xcrt e => some (0xCA, 0, e)
  | .cuepush e => some (0xD0, 0, e)
  | .cuepop e => some (0xD1, 0, e)
  | .gainadd e => some (0xD2, 0, e)
  | .gainset e => some (0xD3, 0, e)
  | .resadd e => some (0xD4, 0, e)
  | .grow e => some (0xD5, 0, e)
  | .sklook e => some (0xD6, 0, e)
  | .skld e => some (0xD7, 0, e)
  | .skref e => some (0xD8, 0, e)
  | .skunref e => some (0xD9, 0, e)
  | .skcopy e => some (0xDA, 0, e)
  | .rootcas e => some (0xDB, 0, e)
  | .lnest _ => none
  | .reservedOpc _ => none
  | .sleepIntervalEnd | .rendezvousPairing | .copyOperationCompletion | .heapOperationCompletion | .mxpairPairing
  | .mxpairTimeout | .matrixOperationStart | .matrixOperationCompletion | .tokenGrant | .burstEndLimit
  | .burstEndIdle | .nttUnitOperationCompletion | .streamEngineCompletion | .cueWriteOut | .lookupOrAllocate
  | .stockOperationCompletion | .loadCompletion | .storeCompletion | .pageWalk | .faultRecord
  | .retry | .fail | .tlbinv | .tlbInvalidateDone | .dependenceCheck
  | .packetTake | .teamDispatch | .teamAdmission | .gridCompletion | .preempt
  | .preemptImageWrite | .restore | .keyLoad | .keyDestroy | .keyDestroySlice
  | .mapoutAck | .bankroleWrite | .bankRoleTakeUp | .smpctlWrite | .registerWrite
  | .correctedError | .uncorrectableMemoryError | .patrolScrub | .contextDataError | .coreHardwareFault
  | .dieControlFault | .coreReset | .coldReset | .warmReset | .powerLoss
  | .coreHot | .coreHotClear | .droopEvent | .budgetWindow | .linkStateChange
  | .hostMemoryAccess | .getIdentity | .getBringup | .stageConfig | .attest
  | .portSend | .portRecv | .portMessageReceive | .ptpEventMessage | .slateList
  | .slateRead | .slateAck | .epoch | .freeze | .slateStore
  | .reelMirrorWrite | .sampleInstant | .sampleWrite | .instructionFetch | .multiCycleFormCompletion
  | .bmulSchoolbookCompletion | .cycleCountOverflow | .temperatureSensorReading | .hostAgentAccess => none

/-- One bit as a vector. -/
def bit (b : Bool) : BitVec 1 := BitVec.ofBool b

/-- The first word (spec 06 R156). -/
def headBits (opc sub : Nat) (e : Enc) : BitVec 64 :=
  e.mod ++ (e.sb.toCode ++ (e.sa.toCode ++ (e.dst.toCode ++ (bit e.pn ++ (BitVec.ofNat 6 e.pg.val ++ (bit e.ch ++ (bit e.nw ++
    (bit e.u ++ (BitVec.ofNat 3 sub ++ (BitVec.ofNat 8 opc ++ e.ext.lenCode))))))))))

/-- The loop-nest instruction (spec 06 R173). -/
def nestBits (e : NestEnc) : BitVec 256 :=
  e.stride ++ (e.extent ++ (bit e.abs ++ (bit e.ds ++ (bit e.bsc ++ (bit e.drd ++ (BitVec.ofNat 7 e.bbase.val ++
    (BitVec.ofNat 7 e.abase.val ++ (BitVec.ofNat 7 e.dbase.val ++ (e.etype ++ (e.eop ++ ((0xCB : BitVec 8) ++ (3 : BitVec 2))))))))))))

/-- The words of an instruction (spec 06 R156, R157, R173), with zeros above its length; none for an event of the device,
which has no encoding. -/
def encode (i : Instr) : Option (BitVec 256) :=
  match i with
  | .lnest e => some (nestBits e)
  | .reservedOpc w => some ((0 : BitVec 192) ++ w)
  | i => i.code.map fun c => c.2.2.ext.bits ++ headBits c.1 c.2.1 c.2.2

/-- The little-endian value of bytes (spec 00 R9). -/
def leNat : List Byte → Nat
  | [] => 0
  | b :: bs => b.toNat + 256 * leNat bs

/-- The n little-endian bytes of a value (spec 00 R9). -/
def leBytes : Nat → Nat → List Byte
  | 0, _ => []
  | n + 1, x => BitVec.ofNat 8 x :: leBytes n (x / 256)

/-- The instruction at the start of bytes. -/
def decodeBytes (bs : List Byte) : Except Reject Instr := decode (BitVec.ofNat 256 (leNat (bs.take 32)))

/-- The instruction the decoder reads from the low nbits of w, every higher bit zero. -/
def decodeTableWord (nbits w : Nat) : Option Instr :=
  (decodeBytes (leBytes 32 (w % 2 ^ nbits))).toOption

end Sys2Proof
end

