-- ==== Sys2Proof/Machine/Forms.lean ====
section
/-! DEFINITION. The attributes of each form: lengths, U, MOD class, chain, guard, counter (spec 07 R181), and the operands
that each field holds (spec 08 to 11). Keyed by OPC. -/

namespace Sys2Proof

/-- The TYPE code of classes A, V and C (spec 06 R166). -/
def Enc.ty (e : Enc) : Nat := (e.mod.extractLsb' 7 5).toNat
/-- PREC (spec 06 R166). -/
def Enc.prec (e : Enc) : Nat := (e.mod.extractLsb' 4 3).toNat
/-- SAT. -/
def Enc.sat (e : Enc) : Bool := e.mod.getLsbD 3
/-- RM. -/
def Enc.rm (e : Enc) : Nat := (e.mod.extractLsb' 1 2).toNat
/-- PK. -/
def Enc.pk (e : Enc) : Bool := e.mod.getLsbD 0
/-- COND of class C (spec 06 R167). -/
def Enc.cond (e : Enc) : Nat := (e.mod.extractLsb' 0 4).toNat
/-- The source type of class V: SB[4:0] (spec 06 R166). -/
def Enc.sty (e : Enc) : Nat := (e.sb.toCode.extractLsb' 0 5).toNat
/-- SPREC: SB[7:5]. -/
def Enc.sprec (e : Enc) : Nat := (e.sb.toCode.extractLsb' 5 3).toNat
/-- SPACE of class M (spec 06 R168). -/
def Enc.space (e : Enc) : Nat := (e.mod.extractLsb' 10 2).toNat
/-- ORDER of class M. -/
def Enc.order (e : Enc) : Nat := (e.mod.extractLsb' 7 3).toNat
/-- SCOPE of classes M and W. -/
def Enc.scope (e : Enc) : Nat := (e.mod.extractLsb' 4 3).toNat
/-- ETYPE of class M. -/
def Enc.ety (e : Enc) : Nat := (e.mod.extractLsb' 0 4).toNat
/-- CLASS of class W (spec 06 R169). -/
def Enc.wcls (e : Enc) : Nat := (e.mod.extractLsb' 8 4).toNat
/-- The sc fence bit of class W. -/
def Enc.wsc (e : Enc) : Bool := e.mod.getLsbD 7
/-- The displacement of class J in bytes: 4 times the signed DISP that overlays SB and MOD (spec 06 R170). -/
def Enc.disp (e : Enc) : Int := 4 * (e.mod ++ e.sb.toCode : BitVec 22).toInt
/-- The third source; v0 where the form has no control word. -/
def Enc.sc (e : Enc) : Src := match e.ext with
  | .ctl sc _ => sc
  | _ => .v 0
/-- The control word; 0 where there is none. Instruction bit 74 is its bit 0. -/
def Enc.ctl (e : Enc) : BitVec 54 := match e.ext with
  | .ctl _ c => c
  | _ => 0
/-- The literal; 0 where there is none. -/
def Enc.lit (e : Enc) : W32 := match e.ext with
  | .lit w => w
  | _ => 0
/-- Bits hi to lo of the instruction, within the control word. -/
def Enc.ctlF (e : Enc) (hi lo : Nat) : Nat := (e.ctl.extractLsb' (lo - 74) (hi - lo + 1)).toNat
/-- The fourth source field SD at CTL[127:118] (spec 10 R243). -/
def Enc.sd (e : Enc) : Src := Src.ofCode (e.ctl.extractLsb' 44 10)

/-- The CSR that a CSR form names: the literal's low 12 bits (spec 07 R184). -/
def Enc.csr (e : Enc) : Nat := (e.lit.extractLsb' 0 12).toNat

end Sys2Proof

namespace Sys2Proof.Machine

/-- MOD classes (spec 06 R165). -/
inductive ModCls where
  | a | v | c | m | w | j | z
deriving DecidableEq, Repr

/-- How many registers an operand spans: one, the TYPE's (a pair for 64 bits), a pair, a quad. -/
inductive Wid where
  | one | ty | pair | quad
deriving DecidableEq, Repr

/-- Source kinds that a field accepts (spec 06 R158). -/
structure Kinds where
  v : Bool := false
  s : Bool := false
  int : Bool := false
  flt : Bool := false
  lane : Bool := false
  lit : Bool := false
  latch : Bool := false
deriving DecidableEq, Repr

/-- What a source field of a form holds. -/
inductive Opnd where
  /-- unused: the field is zero (spec 06 R164) -/
  | unused
  /-- a value of one of the kinds; a wrong kind traps with the reason -/
  | val (k : Kinds) (w : Wid) (reason : Nat)
  /-- a predicate operand (spec 08 R187) -/
  | pred
  /-- code 256 + S naming a scalar register that is written -/
  | out
  /-- an inline constant 0 to n -/
  | const (n : Nat)
  /-- a vector register that is written (spec 11 R277) -/
  | vout
  /-- the source type of class V (spec 06 R166) -/
  | stype
  /-- code 448: the literal names a CSR (spec 07 R184) -/
  | csr
  /-- displacement bits of class J (spec 06 R170) -/
  | disp
deriving DecidableEq, Repr

/-- What DST holds. -/
inductive DSpec where
  /-- no destination: DST is zero and NW is 0 (spec 06 R162) -/
  | unused
  /-- a destination of one of the kinds; noExec forbids s126:s127 -/
  | reg (v s p : Bool) (w : Wid) (noExec : Bool)
  /-- the data register of a store (spec 06 R161), which may be scalar or not -/
  | data (s : Bool)
  /-- an accumulator tile -/
  | tile
deriving DecidableEq, Repr

/-- Types, SAT, RM and PK that a form of class A or V admits (spec 09 R210, R211). -/
structure TyRule where
  types : Nat → Bool
  sat : Bool
  rm : Bool
  pk : Bool

/-- Attributes of a form (spec 07 R181). -/
structure Attr where
  l64 : Bool
  l96 : Bool
  l128 : Bool
  /-- the value U is fixed at; none for free -/
  u : Option Bool
  cls : ModCls
  interior : Bool
  guarded : Bool
  cnt : Option Cls

/-- The operands of a form. ctlZero: the low bits of CTL that the form does not use. -/
structure Spec where
  dst : DSpec := .unused
  sa : Opnd := .unused
  sb : Opnd := .unused
  sc : Opnd := .unused
  sd : Opnd := .unused
  ctlZero : Nat := 54

/-- Valid type codes (spec 06 R72). -/
def tyValid (t : Nat) : Bool := t ≤ 0x0B || (0x10 ≤ t && t ≤ 0x13)
/-- Integer type codes. -/
def tyInt (t : Nat) : Bool := t ≤ 7
/-- IEEE float type codes. -/
def tyFlt (t : Nat) : Bool := 8 ≤ t && t ≤ 0x0B
/-- binary8 type codes. -/
def tyB8 (t : Nat) : Bool := 0x10 ≤ t && t ≤ 0x13
/-- Types of 64 bits. -/
def ty64 (t : Nat) : Bool := t = 6 || t = 7 || t = 0x0B
/-- Width in bits of a type (spec 06 R71, R72). -/
def tyBits (t : Nat) : Nat :=
  match t with
  | 0 | 1 => 8
  | 2 | 3 | 8 | 9 => 16
  | 4 | 5 | 10 => 32
  | 6 | 7 | 11 => 64
  | _ => 8
/-- Signed integer types. -/
def tySigned (t : Nat) : Bool := t = 1 || t = 3 || t = 5 || t = 7

/-- Sources of any kind R158 admits. -/
def kAny : Kinds := { v := true, s := true, int := true, flt := true, lane := true, lit := true, latch := true }
/-- Sources of the scalar integer forms (spec 08 R203). -/
def kScl : Kinds := { v := true, s := true, int := true, lit := true, latch := true }
/-- A scalar register, inline integer constant or the literal. -/
def kSil : Kinds := { s := true, int := true, lit := true }
/-- A scalar register or inline integer constant. -/
def kSi : Kinds := { s := true, int := true }
/-- A scalar register. -/
def kS : Kinds := { s := true }
/-- A vector register. -/
def kV : Kinds := { v := true }
/-- A vector or scalar register. -/
def kVs : Kinds := { v := true, s := true }
/-- A vector or scalar register, inline integer constant or the literal. -/
def kVsil : Kinds := { v := true, s := true, int := true, lit := true }

/-- An address operand: a scalar pair in G, a scalar register in another space (spec 10 R250). -/
def oAddr (g : Bool) : Opnd := .val kS (if g then .pair else .one) 0x0B
/-- A name quad (spec 11 R280). -/
def oName : Opnd := .val kS .quad 0x0B

/-- Attributes by OPC (spec 07 R181); none for a reserved OPC and for the loop nest. -/
def attr (opc : Nat) : Option Attr :=
  let mk (l64 l96 l128 : Bool) (u : Option Bool) (cls : ModCls) (i g : Bool) (cnt : Option Cls) : Option Attr :=
    some { l64 := l64, l96 := l96, l128 := l128, u := u, cls := cls, interior := i, guarded := g, cnt := cnt }
  match opc with
  | 0x01 => mk true false false (some true) .z true false none
  | 0x02 => mk true false false (some true) .z false false none
  | 0x03 | 0x04 | 0x05 | 0x06 => mk true false false (some true) .j false true none
  | 0x07 | 0x08 | 0x09 => mk true false false (some true) .z false true none
  | 0x0A | 0x0B => mk true false false (some true) .j false false none
  | 0x0C | 0x0D => mk true false false (some true) .z false false none
  | 0x0E | 0x0F | 0x10 => mk true true false (some true) .z false false none
  | 0x11 | 0x12 => mk true true false (some true) .z false true none
  | 0x13 => mk true false false (some true) .z true true none
  | 0x14 | 0x15 | 0x16 => mk false true false (some true) .z false true none
  | 0x17 => mk true false false (some false) .z false true none
  | 0x18 | 0x1A | 0x1B => mk true true false (some true) .z false true none
  | 0x19 => mk true false false (some true) .z false false none
  | 0x1C => mk true false false (some true) .z false true none
  | 0x20 | 0x21 | 0x22 | 0x23 | 0x24 | 0x27 | 0x28 | 0x29 | 0x2A | 0x2B | 0x2C | 0x2D | 0x2E | 0x31 | 0x33 | 0x34 =>
    mk true true false (some true) .a true true none
  | 0x25 | 0x26 => mk true true false (some true) .a false true none
  | 0x2F => mk true true false (some true) .c true true none
  | 0x30 | 0x32 => mk false false true (some true) .a true true none
  | 0x35 | 0x36 | 0x37 | 0x38 | 0x39 | 0x3A | 0x3B => mk true true false (some true) .z true true none
  | 0x40 | 0x41 | 0x42 | 0x43 | 0x44 => mk true false false none .z true true none
  | 0x45 | 0x47 | 0x48 => mk true false false (some true) .z true true none
  | 0x46 => mk true false false (some false) .z true true none
  | 0x50 | 0x51 | 0x52 | 0x55 | 0x56 | 0x59 | 0x5A | 0x5B | 0x5C | 0x5D | 0x5E | 0x5F | 0x60 | 0x61 | 0x62 | 0x63 | 0x64
  | 0x65 | 0x66 => mk true true false none .a true true none
  | 0x53 | 0x54 => mk true true false none .a false true none
  | 0x57 | 0x58 | 0x67 | 0x69 | 0x73 => mk false false true none .a true true none
  | 0x68 | 0x76 => mk true true false none .c true true none
  | 0x6A | 0x80 => mk true true false none .v true true none
  | 0x70 | 0x71 | 0x72 | 0x74 | 0x75 | 0x77 | 0x81 | 0x82 => mk true true false none .a true true none
  | 0x78 | 0x79 | 0x7A | 0x7B | 0x7C | 0x7D | 0x7E | 0x7F => mk true true false none .a false true none
  | 0x83 | 0x84 | 0x87 => mk true true false (some false) .a false true none
  | 0x85 | 0x86 => mk true false false (some false) .a false true none
  | 0x88 | 0x89 => mk true false false (some false) .z false true none
  | 0x90 | 0x91 | 0x92 | 0x93 | 0x94 | 0x95 | 0x96 | 0x97 | 0x98 | 0x99 | 0x9A | 0x9B =>
    mk true true false (some false) .z false true none
  | 0x9C | 0x9D => mk true false false (some false) .z false true none
  | 0x9E => mk false false true (some true) .z false true (some .mx)
  | 0xA0 | 0xA1 => mk true true true none .a true true none
  | 0xA2 | 0xA3 => mk true true true none .a false true none
  | 0xA4 | 0xAD => mk true true false none .m false true (some .ld)
  | 0xA5 => mk true true false (some true) .m false true (some .ld)
  | 0xA6 | 0xAE | 0xAF => mk true true false none .m false true (some .st)
  | 0xA7 => mk true true false (some false) .m false true (some .ld)
  | 0xA8 => mk true true false (some false) .m false true (some .st)
  | 0xA9 | 0xAA => mk false false true none .m false true (some .ld)
  | 0xAB => mk false false true none .m false true (some .st)
  | 0xAC => mk true false false (some true) .w false false none
  | 0xB0 | 0xB1 | 0xB3 => mk false false true (some true) .z false true (some .xc)
  | 0xB2 => mk true false false (some true) .z false true (some .xc)
  | 0xB4 | 0xB5 => mk true false false none .z false true none
  | 0xB6 | 0xB7 => mk true false false (some true) .z false true (some .hp)
  | 0xB8 | 0xB9 => mk true false false (some true) .z false true none
  | 0xC0 | 0xC1 => mk false false true (some false) .z false true (some .mx)
  | 0xC2 | 0xC3 => mk true true false (some false) .z false true (some .mx)
  | 0xC4 => mk true false false (some true) .z false true (some .mx)
  | 0xC5 => mk false false true (some true) .z false true (some .xc)
  | 0xC6 | 0xC7 | 0xC8 | 0xC9 | 0xCA => mk false false true (some true) .z false true (some .nt)
  | 0xD0 | 0xD1 | 0xD2 | 0xD3 => mk true false false (some false) .z false true (some .cq)
  | 0xD4 => mk true true false (some true) .z false true (some .cq)
  | 0xD5 => mk true true false (some true) .z false true none
  | 0xD6 | 0xD7 | 0xD8 | 0xD9 | 0xDA => mk false false true (some true) .z false true (some .sk)
  | 0xDB => mk false false true (some true) .z false true (some .ld)
  | _ => none

/-- The operand fields of a form, by OPC and SUB (spec 08 R192 to R208, 09 R214 to R238, 10 R239 to R257, 11 R260 to R287). DESIGN
CHOICE: SA of BCMP, BDIVQR and BLEN, which stand outside R230's table, is a vector register only, as that of the table's forms (log 92). -/
def spec (opc sub : Nat) (e : Enc) : Spec :=
  let dS (w : Wid) : DSpec := .reg false true false w false
  let dLink : DSpec := .reg false true false .pair true
  let dV (w : Wid) : DSpec := .reg true false false w false
  let dVu : DSpec := .reg true e.u false .ty false
  let dP : DSpec := .reg false false true .one false
  let any (w : Wid) : Opnd := .val kAny w 0x0B
  let scl (w : Wid) : Opnd := .val kScl w 0x0B
  let sil (w : Wid) : Opnd := .val kSil w 0x0B
  let si : Opnd := .val kSi .one 0x0B
  let s1 : Opnd := .val kS .one 0x0B
  let v1 : Opnd := .val kV .one 0x0B
  let addr : Opnd := .val kVs (if e.space = 0 then .pair else .one) 0x0B
  let off : Opnd := .val kVsil .one 0x0B
  match opc with
  | 0x03 | 0x0A => { sb := .disp }
  | 0x04 | 0x05 => { sa := .val { s := true, latch := true } .one 0x0B, sb := .disp }
  | 0x06 => { dst := dLink, sb := .disp }
  | 0x07 => { dst := dLink, sa := .val kVs .pair 0x0B }
  | 0x08 | 0x09 => { sa := .val kVs .pair 0x0B }
  | 0x0B => { dst := dLink, sa := .pred, sb := .disp }
  | 0x0C => { sa := .val kS .pair 0x0E }
  | 0x0E | 0x0F | 0x10 => { sa := sil .one }
  | 0x11 | 0x12 => { sa := any .one }
  | 0x13 => { dst := dS .one, sa := .const 7 }
  | 0x14 => { dst := dS .ty, sb := .csr }
  | 0x15 => { sa := any .ty, sb := .csr }
  | 0x16 => { dst := dS .ty, sa := any .ty, sb := .csr }
  | 0x17 => { dst := dV .pair }
  | 0x18 | 0x1A => { sa := sil .one }
  | 0x1B => { sa := sil .one, sb := .const 15 }
  | 0x1C => { dst := dS .pair, sa := .const 1 }
  | 0x20 | 0x33 | 0x34 => { dst := dS .ty, sa := scl .ty }
  | 0x21 | 0x22 | 0x23 | 0x24 | 0x25 | 0x26 | 0x27 | 0x28 | 0x29 | 0x2A | 0x2B | 0x2C | 0x2D | 0x2E | 0x31 =>
    { dst := dS .ty, sa := scl .ty, sb := scl .ty }
  | 0x2F => { dst := .reg false true true .one false, sa := scl .ty, sb := scl .ty }
  | 0x30 | 0x32 => { dst := dS .ty, sa := scl .ty, sb := scl .ty, sc := scl .ty }
  | 0x35 | 0x36 | 0x37 | 0x38 => { dst := dS .pair, sa := scl .pair, sb := scl .pair }
  | 0x39 | 0x3A => { dst := dS .one, sa := scl .pair }
  -- MBIT's b is no mask, so that R188's list of sources does not bind it: LANE is admitted (DEDUCED, log 76)
  | 0x3B => { dst := dS .one, sa := scl .pair, sb := any .one }
  | 0x40 | 0x41 | 0x42 => { dst := dP, sa := .pred, sb := .pred }
  | 0x43 | 0x44 => { dst := dP, sa := .pred }
  | 0x45 => { dst := dS .pair, sa := .pred }
  | 0x46 => { dst := dP, sa := scl .pair }
  | 0x47 | 0x48 => { dst := dS .one, sa := .pred }
  | 0x50 | 0x5D | 0x64 | 0x65 | 0x79 | 0x7A | 0x7B | 0x7C | 0x7D | 0x7E | 0x7F | 0x81 => { dst := dVu, sa := any .ty }
  | 0x51 | 0x52 | 0x53 | 0x54 | 0x55 | 0x56 | 0x59 | 0x5A | 0x5B | 0x5C | 0x5E | 0x5F | 0x60 | 0x61 | 0x62 | 0x63
  | 0x70 | 0x71 | 0x72 | 0x74 | 0x75 | 0x78 => { dst := dVu, sa := any .ty, sb := any .ty }
  | 0x57 | 0x73 => { dst := dVu, sa := any .ty, sb := any .ty, sc := any .ty }
  | 0x58 => { dst := .reg true e.u false .pair false, sa := any .one, sb := any .one, sc := any .pair }
  | 0x66 | 0x82 => { dst := dVu, sa := any .ty, sb := .val { kAny with flt := false } .one 0x0B }
  | 0x67 => { dst := dVu, sa := any .ty, sb := any .ty, sc := .val { kAny with flt := false } .one 0x0B }
  | 0x68 | 0x76 => { dst := .reg true e.u true .one false, sa := any .ty, sb := any .ty }
  | 0x69 => { dst := dVu, sa := any .ty, sb := any .ty, sc := .pred }
  | 0x6A | 0x80 => { dst := dVu, sa := any .ty, sb := .stype }
  | 0x77 => { dst := .reg true e.u false .one false, sa := any .ty }
  | 0x83 => { dst := dV .ty, sa := any .ty, sb := any .one }
  | 0x84 | 0x87 => { dst := dV .ty, sa := any .ty, sb := .val kVsil .one 0x0B }
  | 0x85 => { dst := .reg true true false .ty false, sa := any .ty }
  | 0x86 => { dst := dV .ty, sa := any .ty }
  | 0x88 => { sa := si, sb := v1 }
  | 0x89 => { dst := dV .one, sa := si }
  | 0x90 | 0x91 | 0x96 | 0x97 => { dst := dV .one, sa := v1, sb := .val kVsil .one 0x0B }
  | 0x92 | 0x9B => { dst := dV .one, sa := v1 }
  | 0x93 => { dst := dS .one, sa := v1, sb := .val kVsil .one 0x0B }
  | 0x94 | 0x95 | 0x98 => { dst := dV .one, sa := v1, sb := sil .one }
  | 0x99 => { dst := dV .pair, sa := v1, sb := .val kVsil .one 0x0B }
  | 0x9A => if e.dst.isScalar then { dst := dS .one, sa := v1 } else { dst := dV .one, sa := v1, sb := sil .one }
  | 0x9C => { sa := s1, sb := v1 }
  | 0x9D => { dst := dV .one, sa := s1, sb := .out }
  | 0x9E => { dst := dS .one, sa := oAddr (e.ctlF 124 124 = 0), sb := si, sc := si, ctlZero := 32 }
  | 0xA0 | 0xA1 | 0xA2 | 0xA3 =>
    { dst := dVu, sa := any .ty, sb := any .ty,
      sc := if e.ext.lenCode = 2 then .val { v := true, s := true, int := true } .ty 0x0B else .unused }
  | 0xA4 => { dst := dV .ty, sa := addr, sb := off }
  | 0xA5 => { dst := dS .ty, sa := addr, sb := off }
  | 0xA6 => { dst := .data true, sa := addr, sb := off }
  | 0xA7 => { dst := dV .one, sa := .val kS (if e.space = 0 then .pair else .one) 0x0B, sb := off }
  | 0xA8 => { dst := .data false, sa := .val kS (if e.space = 0 then .pair else .one) 0x0B, sb := off }
  | 0xA9 => { dst := dVu, sa := addr, sb := off, sc := any .ty, sd := if sub = 7 then any .ty else .unused, ctlZero := 44 }
  | 0xAA =>
    { dst := .reg true e.u false .quad false, sa := addr, sb := off, sc := .val kVs .quad 0x0E,
      sd := if sub = 0 then .val kVs .quad 0x0E else .unused, ctlZero := 44 }
  | 0xAB => { sa := addr, sb := off, sc := any .ty, sd := .unused, ctlZero := 44 }
  | 0xAC => { sa := s1 }
  | 0xAD | 0xAE | 0xAF => { sa := addr, sb := off }
  | 0xB0 => { sa := oAddr (e.ctlF 127 125 = 0), sb := oAddr (e.ctlF 124 122 = 0), sc := si, ctlZero := 48 }
  | 0xB1 => { sa := oAddr (e.ctlF 127 127 = 0), sb := si, sc := si, ctlZero := 51 }
  | 0xB2 => { sa := oAddr true }
  | 0xB3 => { sa := oAddr (e.ctlF 118 116 = 0), sb := si, ctlZero := 34 }
  | 0xB4 => { sa := si, sb := v1 }
  | 0xB5 => { dst := .reg (!e.u) e.u false .one false, sa := si }
  | 0xB6 => { dst := dS .pair, sa := si, sb := .out }
  | 0xB7 => { sa := oAddr true }
  | 0xB8 => { sa := si, sb := si }
  | 0xB9 => { sa := si }
  | 0xC0 | 0xC1 =>
    { dst := if opc = 0xC1 then dS .one else .unused, sa := if e.ctlF 94 94 = 0 then v1 else s1, sb := s1,
      sc := if e.ctlF 95 95 = 1 then s1 else .unused, ctlZero := 20 }
  | 0xC2 => { dst := dV .one, sa := .val kVsil .one 0x0B, sb := .const 1 }
  | 0xC3 => { sa := .val kVsil .one 0x0B, sb := v1 }
  | 0xC4 => { dst := .tile, sa := .const 1 }
  | 0xC5 => { sa := s1, sb := oAddr (e.ctlF 127 127 = 0), sc := si, ctlZero := 53 }
  | 0xC6 =>
    { dst := dS .one, sa := oAddr (e.ctlF 127 127 = 0), sb := oAddr (e.ctlF 126 126 = 0), sc := oAddr (e.ctlF 125 125 = 0),
      ctlZero := 43 }
  | 0xC7 | 0xC8 =>
    { sa := oAddr (e.ctlF 122 122 = 0), sb := oAddr (e.ctlF 121 121 = 0), sc := .val kSi .pair 0x0B, ctlZero := 47 }
  | 0xC9 => { dst := dS .one, sa := s1, sb := oAddr true }
  | 0xCA => { dst := dS .one, sa := oAddr true }
  | 0xD0 => { dst := dV .pair, sa := v1, sb := .vout }
  | 0xD1 => { dst := dV .one, sb := .vout }
  | 0xD2 | 0xD3 => { dst := dV .pair, sa := .val kVs .pair 0x0B, sb := .val { v := true, s := true, int := true } .one 0x0B }
  | 0xD4 => { dst := dS .one, sa := sil .pair }
  | 0xD5 => { dst := dS .pair, sa := sil .one }
  | 0xD6 => { dst := dS .quad, sa := if e.ctlF 127 127 = 0 then v1 else s1, sb := .out, ctlZero := 53 }
  | 0xD7 => { dst := dS .one, sa := if e.ctlF 127 127 = 1 then s1 else .unused, sb := oName, ctlZero := 45 }
  | 0xD8 | 0xD9 => { dst := dS .one, sa := oName }
  | 0xDA => { dst := dS .one, sa := oAddr (e.ctlF 127 127 = 0), sb := oName, sc := si, ctlZero := 50 }
  | 0xDB => { dst := dS .quad, sa := oAddr true, sb := oName, sc := oName, ctlZero := 44 }
  | _ => {}

/-- Types and modifiers of the forms of classes A and V (spec 08 R203, 09 R214 to R237). -/
def tyRule (opc sub : Nat) : TyRule :=
  let mk (types : Nat → Bool) (sat rm pk : Bool) : TyRule := { types := types, sat := sat, rm := rm, pk := pk }
  let scalar (t : Nat) : Bool := 4 ≤ t && t ≤ 7
  let modular (t : Nat) : Bool := t = 4 || t = 6
  match opc with
  | 0x21 | 0x22 | 0x23 | 0x25 => mk scalar true false false
  | 0x20 | 0x24 | 0x26 | 0x27 | 0x28 | 0x29 | 0x2A | 0x2B | 0x2C | 0x2D | 0x2E | 0x30 | 0x31 | 0x32 | 0x33 | 0x34 =>
    mk scalar false false false
  | 0x50 | 0x69 => mk tyValid false false true
  | 0x51 | 0x52 | 0x55 => mk tyInt true false true
  | 0x53 | 0x54 => mk modular false false false
  | 0x58 => mk (fun t => t = 6 || t = 7) false false false
  | 0x6A | 0x80 => mk tyValid true true true
  | 0x70 | 0x71 | 0x72 | 0x73 | 0x78 | 0x79 | 0x7A | 0x7B | 0x7C | 0x7D | 0x7E | 0x7F | 0x82 => mk tyFlt true true true
  | 0x74 | 0x75 => mk tyFlt false false true
  | 0x77 => mk (fun t => tyFlt t || tyB8 t) false false false
  | 0x81 => mk tyFlt false true true
  | 0x83 | 0x84 | 0x87 => mk modular false false false
  | 0x85 | 0x86 => mk (if sub ≤ 2 then fun t => tyInt t || tyFlt t else tyInt) false (sub = 0) true
  | 0xA0 | 0xA1 | 0xA2 | 0xA3 => mk modular false false false
  | _ => mk tyInt false false true

/-- The CSRs (spec 02 R65, 19 R343): none for a reserved number; else whether it is 64 bits wide and read-only. -/
def csrKind (c : Nat) : Option (Bool × Bool) :=
  if (0x100 ≤ c && c ≤ 0x107) then some (true, false)
  else if (0x110 ≤ c && c ≤ 0x117) || c = 0x120 || c = 0x121 then some (false, false)
  else
    match c with
    | 0x000 | 0x001 | 0x002 | 0x003 | 0x004 | 0x005 | 0x017 | 0x018 | 0x020 | 0x022 | 0x026 | 0x040 | 0x041 | 0x042 =>
      some (false, true)
    | 0x010 | 0x011 | 0x012 | 0x013 | 0x014 => some (false, false)
    | 0x015 | 0x021 | 0x025 | 0x031 => some (true, false)
    | 0x016 | 0x023 | 0x024 | 0x030 => some (true, true)
    | _ => none

/-- Whether an operand of the form's type is a pair: a 64-bit type, f32 under PK, or a 64-bit CSR (spec 03 R71, 06 R160). -/
def tyPair (opc : Nat) (e : Enc) : Bool :=
  match (attr opc).map Attr.cls with
  | some .a | some .v => ty64 e.ty || (e.ty = 0x0A && e.pk)
  | some .c => ty64 e.ty
  | some .m => ty64 e.ety
  | _ => (0x14 ≤ opc && opc ≤ 0x16) && ((csrKind e.csr).map Prod.fst).getD false

/-- Registers that an operand of a width spans. -/
def Wid.count (w : Wid) (pair : Bool) : Nat :=
  match w with
  | .one => 1
  | .ty => if pair then 2 else 1
  | .pair => 2
  | .quad => 4

/-- Whether the source operand SA is a pair: in class V the source type decides. With PK = 1 a 32-bit integer source of a
conversion to f32 is read as a pair too; R210 bars PK for a 32-bit integer TYPE and is silent on STYPE (log 60). -/
def saPair (opc : Nat) (e : Enc) : Bool :=
  if (attr opc).map Attr.cls = some .v then ty64 e.sty || (e.pk && tyBits e.sty = 32) else tyPair opc e

/-- Whether operands of the form hold floats or binary8, so that a float constant may stand for them (spec 06 R159). -/
def floatOperand (opc : Nat) (e : Enc) : Bool :=
  match (attr opc).map Attr.cls with
  | some .a | some .c => 8 ≤ e.ty
  | some .v => 8 ≤ e.sty
  | some .m => 8 ≤ e.ety
  | _ => false

end Sys2Proof.Machine
end

