-- ==== Sys2Proof/Machine/Legal.lean ====
section
/-! DEFINITION. The ILLEGAL reasons that an encoding alone decides (spec 06 R176): each a reason code with the lowest bit
of the offending field. -/

namespace Sys2Proof.Machine

/-- A reason of spec 06 R176 and the lowest bit number of the offending field. -/
abbrev Why := Nat × Nat

/-- One reason when a condition holds. -/
def why (c : Bool) (code bit : Nat) : List Why := if c then [(code, bit)] else []

/-- The order in which reasons are reported: the lower code first; among the fields of one code, the lower bit (log 12). -/
def Why.le (a b : Why) : Bool := a.1 < b.1 || (a.1 = b.1 && a.2 ≤ b.2)

/-- The reason that is reported (spec 06 R176). -/
def firstWhy : List Why → Option Why
  | [] => none
  | w :: ws =>
    match firstWhy ws with
    | none => some w
    | some x => if w.le x then some w else some x

/-- A register operand that spans n registers starts at a multiple of n (spec 06 R160, 10 R244). -/
def alignWhy (n k bit : Nat) : List Why := why (k % n != 0) 0x0E bit

/-- Reasons in a source field (spec 06 R157 to R164). DEDUCED: a literal that a form without a literal word names has the lower reason of
those that apply, 0x0C, also where 08 R195 lists it under 0x0E (log 78). DESIGN CHOICE: a latch code with bits [8:2] not 0 has reason 0x0B, as a reserved
code has; R158 names none (log 90). -/
def srcWhy (o : Opnd) (x : Src) (bit : Nat) (hasLit pair flt : Bool) : List Why :=
  match o with
  | .unused => why (x.toCode != 0) 0x0A bit
  | .disp => []
  | .stype => why (x.toCode.extractLsb' 8 2 != 0) 0x0A 50
  | .csr => why (x != .lit) 0x0B bit
  | .out => match x with
    | .s _ => []
    | _ => [(0x0B, bit)]
  | .vout => match x with
    | .v _ => []
    | _ => [(0x0B, bit)]
  | .const n => match x with
    | .int k => why (n < k.val) 0x0B bit
    | _ => [(0x0B, bit)]
  | .pred =>
    let c := x.toCode.toNat
    match x with
    | .latch _ => []
    | _ => why (!(384 ≤ c && c < 432)) 0x0B bit
  | .val k w r =>
    let n := w.count pair
    match x with
    | .v i => why (!k.v) r bit ++ alignWhy n i.val bit
    | .s i => why (!k.s) r bit ++ alignWhy n i.val bit
    | .int _ | .neg _ => why (!k.int) r bit
    | .flt _ => why (if r = 0x0E then true else !(k.flt && flt)) r bit
    | .lane => why (!k.lane) (if w = .quad then r else 0x0B) bit
    | .lit => why (!k.lit) r bit ++ why (!hasLit) 0x0C bit
    | .latch _ => if k.latch then why (n != 1) 0x0E bit else [(r, bit)]
    | .rsv _ => [(0x0B, bit)]

/-- Reasons in DST and NW (spec 06 R161, R162, R164). DESIGN CHOICE: MXZ, whose DST names the tile that it clears (11 R266), has no
destination in the sense of R162, since R181 lists none as written, so that its NW must be 0 (log 89). -/
def dstWhy (d : DSpec) (x : Dst) (nw pair : Bool) : List Why :=
  match d with
  | .unused => why (x.toCode != 0) 0x0A 23 ++ why nw 0x0D 23
  | .tile => why nw 0x0D 23 ++ match x with
    | .a _ => []
    | _ => [(0x0D, 23)]
  | .data sc => why nw 0x0D 23 ++ match x with
    | .v i => alignWhy (if pair then 2 else 1) i.val 23
    | .s i => why (!sc) 0x0D 23 ++ alignWhy (if pair then 2 else 1) i.val 23
    | _ => [(0x0D, 23)]
  | .reg v s p w noExec =>
    let n := w.count pair
    match x with
    | .v i => why (!v) 0x0D 23 ++ alignWhy n i.val 23
    | .s i => why (!s) 0x0D 23 ++ alignWhy n i.val 23 ++ why (noExec && 126 ≤ i.val) 0x0E 23
    | .p _ => why (!p) 0x0D 23
    | .none => why (!nw) 0x0D 23
    | _ => [(0x0D, 23)]

/-- Reasons in TYPE, PREC, SAT, RM and PK of classes A and V (spec 06 R166, 09 R210, R211). -/
def tyWhy (r : TyRule) (e : Enc) : List Why :=
  why (!(tyValid e.ty && r.types e.ty)) 0x09 59
  ++ why (if tyB8 e.ty then e.prec = 0 else e.prec != 0) 0x09 56
  ++ why (e.sat && !r.sat) 0x09 55
  ++ why (e.rm != 0 && !(r.rm && (e.ty = 0x0A || e.ty = 0x0B))) 0x09 53
  ++ why (e.pk && (!r.pk || e.ty = 4 || e.ty = 5 || ty64 e.ty)) 0x09 52

/-- Spaces, orders and types that a memory form admits (spec 10 R240). -/
def memWhy (opc sub : Nat) (e : Enc) : List Why :=
  let load := opc = 0xA4 || opc = 0xA5 || opc = 0xA7
  let atom := opc = 0xA9 || opc = 0xAA
  let pref := opc = 0xAD
  let maint := opc = 0xAE || opc = 0xAF
  let atomTy (t : Nat) : Bool := (4 ≤ t && t ≤ 7) || t = 0x0A || t = 0x0B
  let bitwise := (opc = 0xA9 || opc = 0xAB) && 1 ≤ sub && sub ≤ 3
  let kb := e.space = 2 || e.space = 3
  why (if load then false else if pref then !(e.space = 0 || e.space = 2) else if maint then e.space != 0 else kb) 0x09 62
  ++ why (if load then 1 < e.order || (kb && e.order != 0) else if atom then 4 < e.order
          else if pref || maint then e.order != 0 else !(e.order = 0 || e.order = 2)) 0x09 59
  ++ why (5 < e.scope || (load && kb && e.scope != 0) || (pref && e.scope != 0)) 0x09 56
  ++ why (if opc = 0xA7 || opc = 0xA8 then e.ety != 4 else if opc = 0xAA then e.ety != 6
          else if pref || maint then e.ety != 0 else if opc = 0xA9 || opc = 0xAB then !atomTy e.ety || (bitwise && 8 ≤ e.ety)
          else 0x0B < e.ety) 0x09 52

/-- Reasons in MOD (spec 06 R165 to R170). -/
def modWhy (a : Attr) (opc sub : Nat) (e : Enc) : List Why :=
  match a.cls with
  | .a => tyWhy (tyRule opc sub) e
  | .v =>
    let src := e.sty
    let ok := if opc = 0x6A then tyInt src else tyFlt src || tyB8 src
    tyWhy (tyRule opc sub) e
    ++ why (!ok) 0x09 42
    ++ why (if tyB8 src then e.sprec = 0 else e.sprec != 0) 0x09 47
    ++ why (e.pk && tyBits src != tyBits e.ty) 0x09 52
  | .c =>
    why (!(tyValid e.ty && (if opc = 0x76 then 8 ≤ e.ty else if opc = 0x2F then 4 ≤ e.ty && e.ty ≤ 7 else tyInt e.ty))) 0x09 59
    ++ why (if tyB8 e.ty then e.prec = 0 else e.prec != 0) 0x09 56
    ++ why (if opc = 0x76 then 7 < e.cond else 5 < e.cond) 0x09 52
  | .m => memWhy opc sub e
  | .w =>
    why (9 < e.wcls) 0x09 60 ++ why (e.wsc && e.wcls != 9) 0x09 59
    ++ why (5 < e.scope || (!e.wsc && e.scope != 0)) 0x09 56
    ++ why (e.mod.extractLsb' 0 4 != 0) 0x0A 52
  | .j => []
  | .z => why (e.mod != 0) 0x0A 52

/-- Element types of an MXMAC operand in modes 0 and 4 (spec 06 R171). -/
def mxTyOk (t : Nat) : Bool := t = 8 || t = 9 || tyB8 t

/-- Reasons in the control word of MXMAC and MXPAIR (spec 06 R171, 02 R54, 03 R88). -/
def mxWhy (e : Enc) : List Why :=
  let at_ := e.ctlF 127 123
  let bt := e.ctlF 122 118
  let ap := e.ctlF 117 115
  let bp := e.ctlF 114 112
  let mode := e.ctlF 111 109
  let float := mode = 0 || mode = 4
  let int := 1 ≤ mode && mode ≤ 3
  let tile := e.ctlF 98 96
  why (if float then !mxTyOk at_ || (mode = 4 && !tyB8 at_) else at_ != 0) 0x11 123
  ++ why (if float then !mxTyOk bt || (mode = 4 && !tyB8 bt) || (tyB8 at_ != tyB8 bt) || (!tyB8 at_ && at_ != bt) else bt != 0)
       0x11 118
  ++ why (if float && tyB8 at_ then ap = 0 else ap != 0) 0x11 115
  ++ why (if float && tyB8 bt then bp = 0 else bp != 0) 0x11 112
  ++ why (4 < mode) 0x11 109
  ++ why (!int && e.ctlF 108 108 = 1) 0x11 108
  ++ why (!int && e.ctlF 107 107 = 1) 0x11 107
  ++ why (mode != 4 && e.ctlF 106 99 != 0) 0x11 99
  ++ why (2 ≤ mode && mode ≤ 4 && !(tile = 0 || tile = 3)) 0x10 96
  ++ why (int && e.ctlF 95 95 = 1) 0x11 95

/-- Reasons in the control words of the other 128-bit forms (spec 09 R235, 10 R250 to R252, 11 R267 to R283). -/
def ctlWhy (opc : Nat) (e : Enc) : List Why :=
  match opc with
  | 0x9E => why (!(e.ctlF 127 125 = 0 || e.ctlF 127 125 = 3)) 0x10 125 ++ why (e.ctlF 122 122 = 0 && e.ctlF 121 106 != 0) 0x11 106
  | 0xB0 => why (e.ctlF 127 125 = 2 || 4 ≤ e.ctlF 127 125) 0x11 125 ++ why (4 ≤ e.ctlF 124 122) 0x11 122
  | 0xB3 => why (4 ≤ e.ctlF 118 116 || (e.ctlF 118 116 = 2 && e.ctlF 119 119 = 1)) 0x11 116
  | 0xC0 | 0xC1 => mxWhy e
  | 0xC6 => why (!(e.ctlF 124 122 = 0 || e.ctlF 124 122 = 3)) 0x10 122
  | 0xC7 | 0xC8 => why (e.ctlF 127 123 = 0 || 16 < e.ctlF 127 123) 0x11 123
  | 0xD7 => why (e.ctlF 127 127 = 1 && e.ctlF 126 119 != 0) 0x0A 119
  | 0xDA => why (5 < e.ctlF 126 124) 0x11 124
  | 0xDB => why (5 < e.ctlF 120 118) 0x11 118
  | _ => []

/-- Where the exec pair is forbidden: a name quad of Stock that names s124, and JOIN's mask pair (spec 11 R280, 08 R195, 01
R28). -/
def execPairWhy (opc : Nat) (e : Enc) : List Why :=
  let q (x : Src) (bit : Nat) : List Why := why (x = .s 124) 0x0E bit
  match opc with
  | 0x0C => why (e.sa = .s 126) 0x0E 32
  | 0xD6 => why (e.dst = .s 124) 0x0E 23
  | 0xD7 | 0xDA => q e.sb 42
  | 0xD8 | 0xD9 => q e.sa 32
  | 0xDB => why (e.dst = .s 124) 0x0E 23 ++ q e.sb 42 ++ q e.sc 64
  | _ => []

/-- Whether a source field of a form names the literal: an unused field, and one that holds something else, reads nothing (spec
06 R157, R164). -/
def namesLit (o : Opnd) (x : Src) : Bool :=
  match o with
  | .val _ _ _ | .pred | .const _ | .csr => x = .lit
  | _ => false

/-- The literal of a CSR form (spec 07 R184): a reserved number, or nonzero bits above it. -/
def csrWhy (opc : Nat) (e : Enc) : List Why :=
  if 0x14 ≤ opc && opc ≤ 0x16 && e.ext.lenCode = 1 then
    why ((csrKind e.csr).isNone) 0x15 0 ++ why (e.lit.extractLsb' 12 20 != 0) 0x17 76
  else []

/-- Reasons decided by the encoding of a form with a first word (spec 06 R153 to R172, 07 R181). -/
def encWhy (opc sub : Nat) (e : Enc) : List Why :=
  match attr opc with
  | none => [(0x04, 2)]
  | some a =>
    let sp := spec opc sub e
    let hasLit := e.ext.lenCode = 1
    let flt := floatOperand opc e
    let pair := tyPair opc e
    let lenOk := match e.ext with
      | .none => a.l64
      | .lit _ => a.l96 && (namesLit sp.sa e.sa || namesLit sp.sb e.sb)
      | .ctl _ _ => a.l128
    why (!lenOk) 0x06 0
    ++ why (match a.u with | some b => e.u != b | none => false) 0x07 13
    ++ why ((48 ≤ e.pg.val && e.pg.val ≤ 62) || (e.pn && e.pg.val = 63) || (!a.guarded && e.pg.val != 63)) 0x08 16
    ++ modWhy a opc sub e
    ++ srcWhy sp.sa e.sa 32 hasLit (saPair opc e) flt
    ++ srcWhy sp.sb e.sb 42 hasLit pair flt
    ++ srcWhy sp.sc e.sc 64 false pair flt
    ++ (if e.ext.lenCode = 2 && sp.ctlZero ≤ 44 && a.cls = .m then srcWhy sp.sd e.sd 118 false pair flt else [])
    ++ why (e.ctl.toNat % 2 ^ sp.ctlZero != 0) 0x0A 74
    ++ dstWhy sp.dst e.dst e.nw pair
    ++ ctlWhy opc e
    ++ execPairWhy opc e
    ++ csrWhy opc e
    ++ why (e.ch && !a.interior) 0x13 15
    ++ why (opc = 0x0A && e.disp ≤ 0) 0x17 42

/-- Extent n and stride fields of the loop nest (spec 06 R173). -/
def nestExtent (e : NestEnc) (k : Nat) : Nat := (e.extent.extractLsb' (12 * k) 12).toNat
/-- The stride field of operand o (D 0, A 1, B 2) at level k, signed. -/
def nestStride (e : NestEnc) (o k : Nat) : Int := (e.stride.extractLsb' (10 * (5 * o + k)) 10).toInt
/-- Levels that are present: those up to the highest with an extent (spec 06 R174). -/
def nestLevels (e : NestEnc) : Nat :=
  if nestExtent e 4 != 0 then 5 else if nestExtent e 3 != 0 then 4 else if nestExtent e 2 != 0 then 3
  else if nestExtent e 1 != 0 then 2 else 1

/-- Element operations: whether the type is admitted and whether DRD is needed (spec 11 R275). -/
def nestOp (eop ty : Nat) : Bool × Bool :=
  let num := tyInt ty || tyFlt ty
  match eop with
  | 0x00 => (num, false)
  | 0x01 | 0x02 | 0x03 | 0x06 | 0x07 => (num, false)
  | 0x04 | 0x05 => (num, true)
  | 0x08 | 0x09 | 0x0A => (tyInt ty, false)
  | 0x0B | 0x0C => (ty = 4, false)
  | 0x0D => (ty = 4, true)
  | 0x0E => (ty = 4 || ty = 6, false)
  | _ => (false, false)

/-- Reasons decided by the encoding of a loop nest (spec 06 R173, R174, 11 R274, R275). -/
def nestWhy (e : NestEnc) : List Why :=
  let base (o : Nat) : Nat := if o = 0 then e.dbase.val else if o = 1 then e.abase.val else e.bbase.val
  let lv := nestLevels e
  let eop := e.eop.toNat
  let ty := e.etype.toNat
  why (14 < eop) 0x12 10
  ++ why (!tyValid ty || tyB8 ty || (eop ≤ 14 && !(nestOp eop ty).1)) 0x12 16
  ++ ([(0, 21), (1, 28), (2, 35)].flatMap fun (o, bit) => why (base o % 2 != 0 || 124 < base o) 0x12 bit)
  ++ why (eop ≤ 14 && (nestOp eop ty).2 != e.drd) 0x12 42
  ++ ((List.range 5).flatMap fun k => why (k < lv && nestExtent e k = 0) 0x12 (46 + 12 * k))
  ++ ((List.range 3).flatMap fun o => (List.range 5).flatMap fun k =>
        let d := nestStride e o k
        why ((lv ≤ k && d != 0) || (o = 2 && e.bsc && d != 0) || (k < lv && d = -512 && 125 < base o + 2 + k)) 0x12
          (106 + 10 * (5 * o + k)))

/-- Reasons decided by an instruction alone; an event of the device has none. -/
def instrWhy (i : Instr) : List Why :=
  match i with
  | .lnest e => nestWhy e
  | .reservedOpc _ => [(0x04, 2)]
  | i => match i.code with
    | some (opc, sub, e) => encWhy opc sub e
    | none => []

end Sys2Proof.Machine
end

