-- ==== Sys2Proof/Machine/Mem.lean ====
section
/-! DEFINITION. Byte memories, the device's physical memory with its keys and poison, Reel records, and address translation
(spec 04 R95 to R118, 19 R331 to R335, 20 R346 to R357, 21 R361 to R368). -/

namespace Sys2Proof.Machine

/-- The byte at an address. -/
def Memory.get : Memory → Nat → Byte
  | [], _ => Memory.blank
  | c :: m, a => if a = c.1 then c.2 else if a < c.1 then Memory.blank else Memory.get m a

/-- A memory with one byte written, in canonical form. -/
def Memory.set : Memory → Nat → Byte → Memory
  | [], a, b => if b = Memory.blank then [] else [(a, b)]
  | c :: m, a, b =>
    if a < c.1 then (if b = Memory.blank then c :: m else (a, b) :: c :: m)
    else if a = c.1 then (if b = Memory.blank then m else (a, b) :: m)
    else c :: Memory.set m a b

/-- n bytes from an address. -/
def Memory.read (m : Memory) (a : Nat) : Nat → List Byte
  | 0 => []
  | n + 1 => m.get a :: Memory.read m (a + 1) n

/-- Bytes written from an address on. -/
def Memory.write (m : Memory) (a : Nat) : List Byte → Memory
  | [] => m
  | b :: bs => Memory.write (m.set a b) (a + 1) bs

/-- The die on which a physical address is homed (spec 20 R349). -/
def homeDie (pa : Nat) : Nat := pa / 4096 % 12 / 3

/-- The die of a core (spec 00 R10). -/
def dieOf (core : Nat) : Nat := core / 36

/-- The other core of a pair (spec 00 R10). -/
def partner (core : Nat) : Nat := if core % 2 = 0 then core + 1 else core - 1

/-- Entry of a list of pairs kept by key, 0 where no entry stands. -/
def tagOf (l : List (Nat × Nat)) (k : Nat) : Nat := ((l.find? fun p => p.1 = k).map Prod.snd).getD 0

/-- A list of pairs with one entry replaced, entries rising by key and none 0. -/
def tagSet : List (Nat × Nat) → Nat → Nat → List (Nat × Nat)
  | [], k, v => if v = 0 then [] else [(k, v)]
  | p :: l, k, v =>
    if k < p.1 then (if v = 0 then p :: l else (k, v) :: p :: l)
    else if k = p.1 then (if v = 0 then l else (k, v) :: l)
    else p :: tagSet l k v

/-- The key that a binding stands for, as a number: 0 without one, else 1 + the keys of its slot (spec 04 R117). -/
def State.keyNum (s : State) (key : Option (Fin 64)) : Nat :=
  match key with
  | none => 0
  | some k => match s.keys[k.val]? with
    | some (some y) => y.toNat + 1
    | _ => 0

/-- The key of a binding's number. -/
def keyOf (n : Nat) : BitVec 512 := BitVec.ofNat 512 (n - 1)

/-- A block of 16 bytes stored under binding t as it shows under binding k: what t encrypted, decrypted under k (spec 04 R117). -/
def viewBlock (t k block : Nat) (b : List Byte) : List Byte :=
  let plain := b.map BitVec.toNat
  let cipher := if t = 0 then plain else xtsEncrypt (keyOf t) block plain
  (if k = 0 then cipher else xtsDecrypt (keyOf k) block cipher).map (BitVec.ofNat 8)

/-- The bytes that n bytes of device memory show under a binding: the plaintext where the line is stored under it, other
bytes where it is not (spec 04 R117, 20 R357; log 5). -/
def State.readDev (s : State) (pa n : Nat) (key : Option (Fin 64)) : List Byte :=
  let k := s.keyNum key
  let t := tagOf s.keyTags (pa / 128)
  let bs := s.mem.read pa n
  if t = k then bs
  else (List.range n).map fun i =>
    let block := (pa + i) / 16
    ((viewBlock t k block (s.mem.read (16 * block) 16))[(pa + i) % 16]?).getD 0

/-- Whether a key slot is empty for an access to a physical address: the slice of its home die has passed a destroy of it, or
no key is loaded (spec 20 R356, R357). -/
def State.keyEmpty (s : State) (key : Option (Fin 64)) (pa : Nat) : Bool :=
  match key with
  | none => false
  | some q => ((s.keys[q.val]?).getD none).isNone || (s.keyOp = 2 && s.keySlot = q && !s.keyDies.contains (homeDie pa))

/-- The lines that a die's slices of the memory-side cache hold (spec 00 R3: 512 MiB over four dies). -/
def cacheLines : Nat := 2 ^ 20

/-- A line put into the memory-side cache; the oldest of its die leaves a full one, and its data stand in memory. -/
def cachePut (cs : List CacheLine) (c : CacheLine) : List CacheLine :=
  let all := c :: cs.filter fun d => d.line != c.line
  let mine := all.filter fun d => homeDie (128 * d.line) = homeDie (128 * c.line)
  match mine.drop cacheLines with
  | [] => all
  | o :: _ => all.filter fun d => d.line != o.line

/-- Bytes of one 128-byte line of device memory written under a binding; the line is then dirty (spec 04 R117, 20 R357). -/
def State.writeLine (s : State) (pa : Nat) (bs : List Byte) (key : Option (Fin 64)) : State :=
  let k := s.keyNum key
  let line := pa / 128
  let t := tagOf s.keyTags line
  let m := if t = k then s.mem else s.mem.write (128 * line) (s.readDev (128 * line) 128 key)
  { s with mem := m.write pa bs, keyTags := tagSet s.keyTags line k,
           cache := cachePut s.cache { line := line, dirty := true, slot := key } }

/-- Why a physical address of device memory does not answer: NOMAP for an absent region, DIEDOWN, POISON for a read of a
poisoned line (spec 19 R328, R342, 20 R349 to R352). -/
def State.physWhy (s : State) (pa : Nat) (read : Bool) : Option Nat :=
  let region := pa / (48 * 2 ^ 30)
  if !(region < 12 && s.regions.getLsbD region) then some 0x01
  else if ((s.dies[homeDie pa]?).map Die.down).getD false then some 0x08
  else if read && s.poison.contains (pa / 128) then some 0x05
  else none

/-- Whether an event code is recorded (spec 21 R367). -/
def State.reelEnabled (s : State) (code : Nat) : Bool :=
  [0x08, 0x12, 0x13, 0x15, 0x30, 0x31, 0x38, 0x39, 0x78].contains code
  || (if code < 64 then s.reelen0.getLsbD code else s.reelen1.getLsbD (code % 64))

/-- A saturating 32-bit count raised by n. -/
def sat32 (x : W32) (n : Nat) : W32 := if 2 ^ 32 ≤ x.toNat + n then 0xFFFFFFFF else x + BitVec.ofNat 32 n

/-- A ring with records appended as one step: a frozen ring only counts them as lost; a full ring drops its oldest; a
mirrored ring stages each record, or drops it (spec 21 R361, R364, R368, R369). -/
def Ring.append (r : Ring) (recs : List (BitVec 128)) : Ring :=
  if r.frozen then { r with lost := sat32 r.lost 1 }
  else
    let all := r.recs ++ recs
    let mir := if r.mir.en then
        let room := 64 - r.mir.staging.length
        { r.mir with staging := r.mir.staging ++ recs.take room,
                     drop := sat32 r.mir.drop (recs.length - room) }
      else r.mir
    { r with recs := all.drop (all.length - 4096), mir := mir }

/-- The context field of a record: 0xFFFF for none (spec 21 R365). -/
def ctxField (ctx : Option W32) : Nat :=
  match ctx with
  | none => 0xFFFF
  | some c => if 65533 < c.toNat then 0xFFFD else c.toNat

/-- A record (spec 21 R362). -/
def record (time : W64) (code : Nat) (ctx : Option W32) (payload : Nat) : BitVec 128 :=
  BitVec.ofNat 128 ((time.toNat % 2 ^ 40) * 2 ^ 88 + code * 2 ^ 81 + ctxField ctx * 2 ^ 65 + payload % 2 ^ 65)

/-- A continuation record (spec 21 R364). -/
def contRecord (a b : Nat) (w : W64) : BitVec 128 :=
  BitVec.ofNat 128 (0x78 * 2 ^ 81 + (a % 256) * 2 ^ 73 + (b % 256) * 2 ^ 65 + w.toNat * 2)

/-- An event recorded in a ring, with its continuation where it has one (spec 21 R361 to R367). -/
def State.reel (s : State) (ring code : Nat) (ctx : Option W32) (payload : Nat)
    (cont : Option (Nat × Nat × W64) := none) : State :=
  if s.reelEnabled code then
    let recs := record s.nstime code ctx payload :: (match cont with
      | some (a, b, w) => [contRecord a b w]
      | none => [])
    { s with rings := s.rings.modify ring fun r => r.append recs }
  else s

/-- GSLOT of a group, at [64:55] of a group payload (spec 21 R362). -/
def Group.gslot (g : Group) : Nat := (g.quad * 256 + g.slot) * 2 ^ 55

/-- GSLOT of an event that no group raised. -/
def noSlot : Nat := 0x3FF * 2 ^ 55

/-- A PC as a record holds it: bits [56:2] (spec 21 R362). -/
def pcField (pc : W64) : Nat := pc.toNat / 4 % 2 ^ 55

/-- The descriptor of a context (spec 19 R331): ROOT, EN, ARENA, ARENALEN. -/
structure CtxDesc where
  root : Nat
  en : Bool
  /-- the bits that must be zero are -/
  ok : Bool
  arena : W64
  arenaLen : W64
deriving DecidableEq, Repr

/-- The descriptor read from the context table at CTXTBL, a physical address; none where it does not answer. -/
def State.ctxDesc (s : State) (ctx : W32) : Option CtxDesc :=
  let pa := s.ctxtbl.toNat + 32 * ctx.toNat
  match s.physWhy pa true with
  | some _ => none
  | none =>
    let d := leNat (s.readDev pa 32 none)
    some { root := d % 2 ^ 64, en := d / 2 ^ 64 % 2 = 1, ok := d / 2 ^ 65 % 2 ^ 63 = 0,
           arena := BitVec.ofNat 64 (d / 2 ^ 128), arenaLen := BitVec.ofNat 64 (d / 2 ^ 192) }

/-- What the device keeps of a context; a context it has not met has nothing allocated. -/
def State.ctx (s : State) (id : W32) : Ctx :=
  (s.ctxs.find? fun c => c.id = id).getD
    { id := id, blocks := [], halloced := [], arena := 0, arenaLen := 0, stock := [], fatal := false }

/-- A context's record, with its arena as a descriptor gives it: a range that only grew keeps its blocks, any other change frees
them all (spec 10 R255). -/
def Ctx.follow (c : Ctx) (d : CtxDesc) : Ctx :=
  if d.arena = c.arena && c.arenaLen ≤ d.arenaLen then { c with arenaLen := d.arenaLen }
  else { c with arena := d.arena, arenaLen := d.arenaLen, blocks := [], halloced := [] }

/-- The arenas of the contexts for which a condition holds follow their descriptors. -/
def State.followArenas (s : State) (p : Ctx → Bool) : State :=
  { s with ctxs := s.ctxs.map fun c => if p c then ((s.ctxDesc c.id).map c.follow).getD c else c }

/-- Bytes of one 128-byte line of device memory written under a binding; a context whose descriptor they change has the arena that
it then gives (spec 10 R255). -/
def State.writeDev (s : State) (pa : Nat) (bs : List Byte) (key : Option (Fin 64)) : State :=
  (s.writeLine pa bs key).followArenas fun c =>
    let d := s.ctxtbl.toNat + 32 * c.id.toNat
    pa < d + 32 && d < pa + bs.length

/-- What a walk finds: a leaf with its page size in bits, no valid entry at a level, a malformed entry, or a table that does
not answer. -/
inductive Walk where
  | leaf (w : W64) (bits : Nat)
  | absent (level : Nat)
  | bad (kind : Nat)
deriving DecidableEq, Repr

/-- Lowest address bit that a level's entry covers: its page or table spans that many bits (spec 19 R332). -/
def levelBits (level : Nat) : Nat := if level = 0 then 16 else 12 + 9 * level

/-- Whether a valid entry breaks R333 at a level. -/
def entryBad (w : W64) (level : Nat) : Bool :=
  let leaf := w.getLsbD 1
  let cls := (w.extractLsb' 55 2).toNat
  w.extractLsb' 52 3 != 0 || w.getLsbD 7 || w.extractLsb' 2 2 != 0
  || (if leaf then
        3 ≤ level || cls = 3 || (cls = 1 && (w.getLsbD 6 || w.getLsbD 5)) || w.extractLsb' 8 4 != 0
        || (w.toNat % 2 ^ 52 / 2 ^ 12 * 2 ^ 12) % 2 ^ levelBits level != 0
      else
        level = 0 || w.extractLsb' 57 7 != 0 || cls != 0 || w.extractLsb' 4 3 != 0
        || (level != 1 && w.extractLsb' 8 4 != 0))

/-- The walk of a virtual address from a table at a level down, and the addresses of the entries that it reads (spec 19 R332, R333). -/
def State.walk (s : State) (va : Nat) : Nat → Nat → Walk × List Nat
  | level, table =>
    let idx := va / 2 ^ levelBits level % (if level = 0 then 32 else 512)
    let pa := table + 8 * idx
    match s.physWhy pa true with
    | some k => (.bad k, [pa])
    | none =>
      let w := BitVec.ofNat 64 (leNat (s.readDev pa 8 none))
      if !w.getLsbD 0 then (.absent level, [pa])
      else if entryBad w level then (.bad 0x09, [pa])
      else if w.getLsbD 1 then (.leaf w (levelBits level), [pa])
      else
        match level with
        | 0 => (.bad 0x09, [pa])
        | l + 1 =>
          let r := State.walk s va l (if l = 0 then w.toNat % 2 ^ 52 / 2 ^ 8 * 2 ^ 8 else w.toNat % 2 ^ 52 / 2 ^ 12 * 2 ^ 12)
          (r.1, pa :: r.2)

/-- Why an access is not made: a MEMFAULT kind of R328 with the address; a key slot that is empty, which is one of kind POISON (spec
20 R357); an entry that is not present (19 R335); or nothing but a wait, by the reason of R382, with the traffic
classes and dies whose budgets hold it. -/
inductive Flt where
  | mem (kind : Nat) (addr : W64)
  | noKey (addr : W64)
  | absent (va : W64) (level : Nat)
  | wait (reason : Nat) (budgets : List (Nat × Nat))
deriving DecidableEq, Repr

/-- Kinds of access, coded as fault records code them (spec 19 R335). -/
inductive AccK where
  | load | store | atomic | fetch | engRead | engWrite
deriving DecidableEq, Repr

/-- The KIND byte of a fault record. -/
def AccK.code : AccK → Nat
  | .load => 0 | .store => 1 | .atomic => 2 | .fetch => 3 | .engRead => 4 | .engWrite => 5

/-- An access that reads. -/
def AccK.reads : AccK → Bool
  | .store | .engWrite => false
  | _ => true

/-- Whether a leaf allows an access: READ for loads and engine reads, EXEC for a fetch; WRITE, and neither EXEC nor the Stock
class, for whatever writes (spec 19 R328, R333, 06 R154, 04 R109). -/
def leafAllows (w : W64) (k : AccK) : Bool :=
  match k with
  | .load | .engRead => w.getLsbD 4
  | .fetch => w.getLsbD 6
  | .store | .atomic | .engWrite => w.getLsbD 5 && !w.getLsbD 6 && w.extractLsb' 55 2 != 1

/-- A cached translation of a page, if the list holds one. -/
def tlbFind (l : List Tlb) (ctx : W32) (va : Nat) : Option Tlb :=
  l.find? fun t => t.ctx = ctx && t.vpage = va / 2 ^ t.bits

/-- A TLB with a translation added; the oldest leaves a full one (spec 19 R334; log 5). -/
def tlbAdd (l : List Tlb) (cap : Nat) (t : Tlb) : List Tlb := (l ++ [t]).drop (l.length + 1 - cap)

/-- The counters of a group that count an event (spec 19 R343). -/
def Group.counting (g : Group) (event : Nat) : List Nat :=
  (List.range 8).filter fun k => g.pmctl.getLsbD k && ((g.pmsel[k]?).map BitVec.toNat).getD 0 = event && event != 0

/-- An event that some counters of a group count n times; they take the increments of a cycle at its end (spec 19 R343, R344). -/
def Group.count (g : Group) (ks : List Nat) (event n : Nat) : Group := { g with pend := g.pend ++ ks.map fun k => (k, event, n) }

/-- The group at an index replaced. -/
def State.setGroup (s : State) (gi : Nat) (g : Group) : State := { s with groups := s.groups.set gi g }

/-- An event of a group, counted (spec 19 R343). -/
def State.countEv (s : State) (gi event n : Nat) : State :=
  { s with groups := s.groups.modify gi fun g => g.count (g.counting event) event n }

/-- The bytes that a traffic class may use of a die's memory in a microsecond; none without a cap (spec 18 R326). -/
def Die.budget (d : Die) (k : Nat) : Option Nat :=
  let b := ((d.bwb[k]?).map BitVec.toNat).getD 0
  if b = 0 then none else some (64 * b)

/-- Whether a class has used its budget. -/
def Die.spent (d : Die) (k : Nat) : Bool := match d.budget k with
  | none => false
  | some b => b ≤ (d.bwUsed[k]?).getD 0

/-- Whether any class of any die has a budget. -/
def State.capped (s : State) : Bool := s.dies.any fun d => d.bwb.any (· != 0)

/-- Requests charged to a class at their home dies: byte ranges within lines (spec 18 R326). -/
def State.charge (s : State) (k : Nat) (rs : List (Nat × Nat)) : State :=
  if s.capped then
    rs.foldl (fun s r => { s with dies := s.dies.modify (homeDie r.1) fun d =>
      if (d.budget k).isNone then d else { d with bwUsed := d.bwUsed.modify k (· + r.2) } }) s
  else s

/-- The home die of what a virtual address of a context maps to, by its page tables; none for host memory and where nothing is mapped
(spec 19 R332, R333). -/
def State.homeOf (s : State) (ctx : W32) (va : W64) : Option Nat :=
  match (s.ctxDesc ctx).map fun d => (s.walk va.toNat 4 (d.root / 4096 * 4096)).1 with
  | some (.leaf w bits) =>
    if w.extractLsb' 55 2 = 2 then none else some (homeDie (w.toNat % 2 ^ 52 / 2 ^ bits * 2 ^ bits + va.toNat % 2 ^ bits))
  | _ => none

/-- Where the next request of an engine's operation goes, by space and address; none for the matrix engine, which reads Stage and Boom
alone, and for the Stock and heap engines, which find their lines and blocks themselves (log 42). -/
def OpBody.next : OpBody → Option (Space × W64)
  | .copy _ sp _ a _ | .regIn sp a _ _ _ | .regOut sp a _ | .boomld _ sp a _ | .cres a sp _ _ _ | .bmul _ a _ _ sp _ _ _ _ _ _ _
  | .ntt _ _ a _ sp _ _ _ => some (sp, a)
  | .gather a inS _ _ _ _ => some (if inS then .s else .g, a)
  | .walk a _ | .kswitch a _ _ _ | .xcrt a => some (.g, a)
  | .nest e _ a _ _ _ => some (if e.abs then .s else .g, a)
  | _ => none

/-- The home die of the Stock line that an operation reads first (spec 04 R113). -/
def State.lineHome (s : State) (g : Group) (b : OpBody) : Option Nat :=
  match b with
  | .skld n _ _ | .skcopy _ _ n _ _ =>
    ((s.ctx g.ctx).stock.find? fun l => l.ord = n.extractLsb' 120 8 && l.digest = n.extractLsb' 0 120).map fun l => homeDie l.pa
  | _ => none

/-- The traffic classes and home dies of the requests that an operation of a group has still to make next (spec 18 R326; log 42): those of
an operation that a budget has held are known from what is charged of it. -/
def State.traffic (s : State) (g : Group) (o : Op) : List (Nat × Nat) :=
  if o.phase = .done || o.phase = .paused then []
  else match o.body with
    | .mem a => a.todo.filterMap fun t => match t.place with
        | .dev pa _ => some (0, homeDie pa)
        | _ => none
    | b =>
      let k := match b with
        | .boomld _ _ _ _ => 2
        | _ => 1
      o.paid.map (fun p => (k, p.1)) ++ ((s.lineHome g b).map fun d => (k, d)).toList ++ match b.next with
        | some (.g, a) => ((s.homeOf g.ctx a).map fun d => (k, d)).toList
        | _ => []

/-- Where the next record of a ring, and the next sample of a core, go in memory (spec 21 R368, R383). -/
def Mirror.slot (m : Mirror) : Nat := m.pa.toNat + 16 * (m.tail.toNat % 2 ^ (m.size.toNat + 8))
@[inherit_doc Mirror.slot]
def Sampler.slot (m : Sampler) : Nat :=
  m.base.toNat % 2 ^ 52 / 2 ^ 12 * 2 ^ 12 + 32 * (m.tail.toNat % 2 ^ ((m.base.extractLsb' 0 4).toNat + 8))

/-- Whether a request of another class than k waits on a die: of a group that a budget holds, of an operation, of a staged record (spec
18 R326). -/
def State.othersWait (s : State) (die k : Nat) : Bool :=
  let other (q : Nat × Nat) : Bool := q.2 = die && q.1 != k
  (s.groups.any fun g => g.live && ((match g.wait with
    | .again _ _ b => b.any other
    | _ => false) || g.ops.any fun o => (s.traffic g o).any other))
  || (k != 4 && ((s.rings.any fun r => !r.mir.staging.isEmpty && homeDie r.mir.slot = die)
    || s.cores.any fun c => !c.smp.staging.isEmpty && homeDie c.smp.slot = die))

/-- Whether a class is held on a die: it has used its budget, and another class waits (spec 18 R326). -/
def State.heldOn (s : State) (k die : Nat) : Bool :=
  ((s.dies[die]?).map fun d => d.spent k).getD false && s.othersWait die k

/-- Whether a class is held at the home die of one of some requests. -/
def State.held (s : State) (k : Nat) (rs : List (Nat × Nat)) : Bool := s.capped && rs.any fun r => s.heldOn k (homeDie r.1)

/-- Walks that a die's walkers make in one cycle (spec 19 R334). -/
def walkers : Nat := 64

/-- Whether every walker of a die is in use in this cycle. -/
def State.walkersBusy (s : State) (die : Nat) : Bool :=
  match s.dies[die]? with
  | some d => d.walks.1 = s.cycle + 1 && walkers ≤ d.walks.2
  | none => false

/-- A walk made by a die's walkers: its entries are read, and charged to class 3 (spec 18 R326, 19 R334). -/
def State.walked (s : State) (die : Nat) (entries : List Nat) : State :=
  let s1 := s.charge 3 (entries.map fun a => (a, 8))
  { s1 with dies := s1.dies.modify die fun d =>
      { d with walks := (s.cycle + 1, if d.walks.1 = s.cycle + 1 then d.walks.2 + 1 else 1) } }

/-- A translation put into the core's TLB, and for an access that is not an engine's into its quadrant's. -/
def State.cacheLeaf (s : State) (core : Nat) (quad : Option Nat) (second : Bool) (t : Tlb) : State :=
  { s with cores := s.cores.modify core fun c =>
      { c with tlb1 := match quad with
                 | some q => c.tlb1.modify q fun l => tlbAdd l 128 t
                 | none => c.tlb1,
               tlb2 := if second then tlbAdd c.tlb2 2048 t else c.tlb2 } }

/-- The leaf for a virtual address in a context: from the quadrant's TLB when the access has a group and it is there, from
the core's, or by a walk, after which valid leaves are cached. A miss is counted, and one in both levels recorded; an access waits
while the class of walks is held, and a group's for a walker (spec 19 R332 to R334, 18 R326, 21 R363). gi: the group, whose quadrant's TLB serves accesses that are not an engine's. -/
def State.leafOf (s : State) (core : Nat) (gi : Nat) (eng : Bool) (k : AccK) (ctx : W32) (va : W64) :
    State × Except Flt (W64 × Nat) :=
  let v := va.toNat
  let q := ((s.groups[gi]?).map Group.quad).getD 0
  let quad := if eng then none else some q
  let l1 := if eng then [] else ((s.cores[core]?).bind fun c => c.tlb1[q]?).getD []
  let l2 := ((s.cores[core]?).map Core.tlb2).getD []
  match tlbFind l1 ctx v with
  | some t => (s, .ok (t.leaf, t.bits))
  | none =>
    match tlbFind l2 ctx v with
    | some t => ((if eng then s else s.countEv gi 7 1).cacheLeaf core quad false t, .ok (t.leaf, t.bits))
    | none =>
      let d := s.ctxDesc ctx
      let w := d.map fun d => s.walk v 4 (d.root / 4096 * 4096)
      let entries := (w.map Prod.snd).getD []
      if !eng && s.walkersBusy (dieOf core) then (s, .error (.wait 8 []))
      else if s.held 3 (entries.map fun a => (a, 8)) then (s, .error (.wait 17 (entries.map fun a => (3, homeDie a))))
      else
        let s := ((if eng then s else s.countEv gi 7 1).countEv gi 8 1).walked (dieOf core) entries
        let slot := if eng then noSlot else ((s.groups[gi]?).map Group.gslot).getD noSlot
        let s := s.reel core 0x14 (some ctx) (slot + k.code * 2 ^ 52) (some (0, 0, va))
        match w with
        | none => (s, .error (.mem 0x01 va))
        | some (.bad kind, _) => (s, .error (.mem kind va))
        | some (.absent level, _) => (s, .error (.absent va level))
        | some (.leaf w bits, _) =>
          (s.cacheLeaf core quad true { ctx := ctx, vpage := v / 2 ^ bits, bits := bits, leaf := w }, .ok (w, bits))

/-- Where a G address lies for an access of a context from a core, or its fault (spec 04 R99, 19 R328, R332 to R335, 20 R346,
R357). -/
def State.resolveG (s : State) (core gi : Nat) (eng : Bool) (k : AccK) (ctx : W32) (va : W64) : State × Except Flt Place :=
  if va.extractLsb' 57 7 != 0 then (s, .error (.mem 0x04 va))
  else
    let r := s.leafOf core gi eng k ctx va
    match r.2 with
    | .error f => (r.1, .error f)
    | .ok (w, bits) =>
      let pa := w.toNat % 2 ^ 52 / 2 ^ bits * 2 ^ bits + va.toNat % 2 ^ bits
      if !leafAllows w k then (r.1, .error (.mem 0x02 va))
      else if w.extractLsb' 55 2 = 2 then (r.1, .ok (.host pa))
      else
        let key : Option (Fin 64) := if w.getLsbD 57 then some (w.extractLsb' 58 6).toFin else none
        match r.1.physWhy pa k.reads with
        | some kind => (r.1, .error (.mem kind va))
        | none => if r.1.keyEmpty key pa then (r.1, .error (.noKey va)) else (r.1, .ok (.dev pa key))

/-- The permutation of OFFSET that a swizzle mode applies (spec 04 R105). -/
def swizzle (mode x : Nat) : Nat :=
  match mode with
  | 1 => x ^^^ (x / 128 % 32 * 4)
  | 2 => x ^^^ (x / 128 % 8 * 16)
  | 3 => x - x % 256 + (x / 4 % 8) * 32 + (x / 32 % 8) * 4 + x % 4
  | _ => x

/-- The half of a team that a group of it belongs to, or its partner. -/
def Team.half (t : Team) (odd : Bool) : Half := if odd then t.odd else t.even

/-- A team with a half replaced. -/
def Team.setHalf (t : Team) (odd : Bool) (h : Half) : Team := if odd then { t with odd := h } else { t with even := h }

/-- The index of the team with a grid and team number among those resident. -/
def State.teamIdx (s : State) (grid team : W32) : Option Nat := s.teams.findIdx? fun t => t.grid = grid && t.id = team

/-- Where an S address lies for a group, or its fault (spec 04 R102, R103, 19 R328). n: bytes of the access. -/
def State.resolveS (s : State) (g : Group) (a : W32) (n : Nat) : Except Flt Place :=
  let addr := a.setWidth 64
  let range : Except Flt Place := .error (.mem 0x03 addr)
  match s.teamIdx g.grid g.team with
  | none => range
  | some ti =>
    match s.teams[ti]? with
    | none => range
    | some t =>
      let peer := a.getLsbD 20
      let odd := g.half != peer
      let h := t.half odd
      let off := a.toNat % 2 ^ 19
      if a.extractLsb' 21 9 != 0 || (peer && !t.pair) then range
      else if peer && t.lost = some odd then .error (.mem 0x07 addr)
      else if (if a.getLsbD 19 then h.banks.length ≤ off / 2 ^ 15 else h.stage < off + n) then range
      else .ok (.stage ti odd (a.toNat / 2 ^ 30) (a.toNat % 2 ^ 20))

/-- The G address of n bytes of a grid's constant block from K address a on (spec 04 R100). -/
def State.constAt (s : State) (g : Group) (a : W64) (n : Nat) : Except Flt W64 :=
  match s.grids.find? fun r => r.id = g.grid with
  | none => .error (.mem 0x03 a)
  | some r => if r.packet.constsize.toNat < a.toNat + n then .error (.mem 0x03 a) else .ok (r.packet.const + a)

/-- Where an address of a space lies for an access of n bytes by a group or its engine, or its fault (spec 04 R95 to R103). -/
def State.resolve (s : State) (gi : Nat) (g : Group) (eng : Bool) (k : AccK) (sp : Space) (a : W64) (n : Nat) :
    State × Except Flt Place :=
  match sp with
  | .g => s.resolveG g.core gi eng k g.ctx a
  | .s => (s, s.resolveS g (a.setWidth 32) n)
  | .k =>
    match s.constAt g a n with
    | .error f => (s, .error f)
    | .ok va => s.resolveG g.core gi eng k g.ctx va
  | .b =>
    match s.teamIdx g.grid g.team with
    | none => (s, .error (.mem 0x03 a))
    | some ti =>
      match s.teams[ti]? with
      | none => (s, .error (.mem 0x03 a))
      | some t =>
        if (t.half g.half).boom < a.toNat + n then (s, .error (.mem 0x03 a))
        else (s, .ok (.boom ti g.half a.toNat))

/-- n bytes at a place; a Stage access of more than a word translates each word by its mode (spec 04 R106). -/
def State.readAt (s : State) (p : Place) (n : Nat) : List Byte :=
  match p with
  | .dev pa key => s.readDev pa n key
  | .host pa => s.hostMem.read pa n
  | .stage ti odd swz off =>
    let m : Memory := match s.teams[ti]? with
      | some t => (t.half odd).cells
      | none => []
    (List.range n).map fun i => m.get ((off + i) / 2 ^ 19 * 2 ^ 19 + swizzle swz ((off + i) % 2 ^ 19))
  | .boom ti odd off => match s.teams[ti]? with
    | some t => (t.half odd).boomCells.read off n
    | none => (List.range n).map fun _ => Memory.blank

/-- Bytes written at a place, within one line. -/
def State.writeAt (s : State) (p : Place) (bs : List Byte) : State :=
  match p with
  | .dev pa key => s.writeDev pa bs key
  | .host pa => { s with hostMem := s.hostMem.write pa bs }
  | .stage ti odd swz off =>
    let upd (m : Memory) : Memory := ((List.range bs.length).zip bs).foldl (fun m (i, b) =>
      m.set ((off + i) / 2 ^ 19 * 2 ^ 19 + swizzle swz ((off + i) % 2 ^ 19)) b) m
    { s with teams := s.teams.modify ti fun t =>
        let h := t.half odd
        t.setHalf odd { h with cells := upd h.cells } }
  | .boom ti odd off =>
    { s with teams := s.teams.modify ti fun t =>
        let h := t.half odd
        t.setHalf odd { h with boomCells := h.boomCells.write off bs } }

/-- Which byte of the device the byte i of a place is: space, half and address, the swizzle undone. -/
def Place.byteId (p : Place) (i : Nat) : Nat × Nat × Nat :=
  match p with
  | .dev pa _ => (0, 0, pa + i)
  | .host pa => (1, 0, pa + i)
  | .stage ti odd swz off => (2, 2 * ti + (if odd then 1 else 0), (off + i) / 2 ^ 19 * 2 ^ 19 + swizzle swz ((off + i) % 2 ^ 19))
  | .boom ti odd off => (3, 2 * ti + (if odd then 1 else 0), off + i)

/-- The bytes of places. -/
def byteIds (ps : List (Place × Nat)) : List (Nat × Nat × Nat) := ps.flatMap fun p => (List.range p.2).map p.1.byteId

/-- Whether two places have a byte in common. -/
def Place.meets (p : Place) (n : Nat) (q : Place) (m : Nat) : Bool := (byteIds [(p, n)]).any fun c => (byteIds [(q, m)]).contains c

/-- The device addresses that a place of n bytes covers. -/
def Place.devBytes (p : Place) (n : Nat) : Option (Nat × Nat) :=
  match p with
  | .dev pa _ => some (pa, n)
  | _ => none

/-- Whether byte ranges cover a whole 128-byte line. -/
def coversLine (rs : List (Nat × Nat)) (line : Nat) : Bool :=
  (List.range 128).all fun i => rs.any fun r => r.1 ≤ 128 * line + i && 128 * line + i < r.1 + r.2

/-- Whether a line has a byte in byte ranges. -/
def touchesLine (rs : List (Nat × Nat)) (line : Nat) : Bool := rs.any fun r => decide (r.1 < 128 * line + 128) && decide (128 * line < r.1 + r.2)

/-- Poison cleared, by a write of some bytes, on the lines of them that its operation covers whole (spec 04 R118). rs: the device byte ranges
that the operation has written; now: those that it writes now. -/
def State.clearPoisonOf (s : State) (rs now : List (Nat × Nat)) : State :=
  if s.poison.isEmpty then s else { s with poison := s.poison.filter fun l => !(touchesLine now l && coversLine rs l) }

/-- Poison cleared on the lines that a write operation made at once covers whole (spec 04 R118). -/
def State.clearPoison (s : State) (rs : List (Nat × Nat)) : State := s.clearPoisonOf rs rs

/-- A refused read of a poisoned line is recorded (spec 21 R363). -/
def State.reelPoison (s : State) (g : Group) (eng : Bool) (f : Flt) : State :=
  match f with
  | .mem 0x05 a => s.reel g.core 0x11 (some g.ctx) (if eng then noSlot else g.gslot) (some (0, 0, a))
  | _ => s

end Sys2Proof.Machine
end

