-- ==== Sys2Proof/Machine/Fatal.lean ====
section
/-! DEFINITION. What leaves a core or ends a context: team exit, grid completion with its writes, the Cue write-out, freeze
and fatal faults (spec 01 R37 to R41, 05 R148, R149, 18 R314, R321, 19 R342, 21 R369 to R371). -/

namespace Sys2Proof.Machine

/-- The ranges of an address range that stay within one 128-byte line. -/
def chunks (fuel a n : Nat) : List (Nat × Nat) :=
  match fuel with
  | 0 => []
  | fuel + 1 =>
    if n = 0 then []
    else
      let k := min n (128 - a % 128)
      (a, k) :: chunks fuel (a + k) (n - k)

/-- The line ranges of n bytes from an address. -/
def lineChunks (a n : Nat) : List (Nat × Nat) := chunks (n / 128 + 2) a n

/-- Where a G address lies for an access that the device makes itself in a context: it uses no TLB and makes no fault record
(spec 18 R314, 19 R337). -/
def State.resolveD (s : State) (k : AccK) (ctx : W32) (va : Nat) : Except Flt Place :=
  let v := BitVec.ofNat 64 va
  if 2 ^ 57 ≤ va then .error (.mem 0x04 v)
  else
    match s.ctxDesc ctx with
    | none => .error (.mem 0x01 v)
    | some d =>
      match (s.walk va 4 (d.root / 4096 * 4096)).1 with
      | .bad kind => .error (.mem kind v)
      | .absent level => .error (.absent v level)
      | .leaf w bits =>
        let pa := w.toNat % 2 ^ 52 / 2 ^ bits * 2 ^ bits + va % 2 ^ bits
        if !leafAllows w k then .error (.mem 0x02 v)
        else if w.extractLsb' 55 2 = 2 then .ok (.host pa)
        else
          let key : Option (Fin 64) := if w.getLsbD 57 then some (w.extractLsb' 58 6).toFin else none
          match s.physWhy pa k.reads with
          | some kind => .error (.mem kind v)
          | none => if s.keyEmpty key pa then .error (.noKey v) else .ok (.dev pa key)

/-- Bytes the device reads itself in a context, by a kind of access; none where some byte faults. -/
def State.readD (s : State) (ctx : W32) (va n : Nat) (k : AccK := .engRead) : Option (List Byte) :=
  (lineChunks va n).foldl (fun acc c => match acc, s.resolveD k ctx c.1 with
    | some bs, .ok p => some (bs ++ s.readAt p c.2)
    | _, _ => none) (some [])

/-- Bytes the device writes itself in a context, line after line; none where some line faults. Lines written whole lose their
poison. -/
def State.writeD (s : State) (ctx : W32) (va : Nat) (bs : List Byte) : Option State :=
  let r := (lineChunks va bs.length).foldl (fun (acc : Option (State × List (Nat × Nat))) c => match acc with
    | none => none
    | some (s, rs) => match s.resolveD .engWrite ctx c.1 with
      | .ok p => some (s.writeAt p ((bs.drop (c.1 - va)).take c.2), rs ++ (p.devBytes c.2).toList)
      | .error _ => none) (some (s, []))
  r.map fun (s, rs) => s.clearPoison rs

/-- The record of a grid. -/
def State.grid? (s : State) (id : W32) : Option Grid := s.grids.find? fun g => g.id = id

/-- A grid's record changed. -/
def State.modGrid (s : State) (id : W32) (f : Grid → Grid) : State :=
  { s with grids := s.grids.map fun g => if g.id = id then f g else g }

/-- A context's record replaced. -/
def State.setCtx (s : State) (c : Ctx) : State :=
  if s.ctxs.any fun x => x.id = c.id then { s with ctxs := s.ctxs.map fun x => if x.id = c.id then c else x }
  else { s with ctxs := s.ctxs ++ [c] }

/-- The resident groups of a team, by index in the state's list. -/
def State.groupsOf (s : State) (grid team : W32) : List (Nat × Group) :=
  ((List.range s.groups.length).zip s.groups).filter fun (_, g) => g.live && g.grid = grid && g.team = team

/-- The groups for which a condition holds, changed. -/
def State.modGroups (s : State) (p : Group → Bool) (f : Group → Group) : State :=
  { s with groups := s.groups.map fun g => if g.live && p g then f g else g }

/-- A group that becomes ready in this cycle (spec 01 R44). -/
def Group.wake (g : Group) (cycle : Nat) : Group := { g with wait := .ready, since := cycle }

/-- Barrier phases that have completed (spec 08 R196): phase b advances to the least arrival count of the groups that have not
exited. Groups that wait for a completed phase, and sleeping groups of the team, become ready (R198). -/
def State.advanceBarriers (s : State) (grid team : W32) : State :=
  match s.teamIdx grid team with
  | none => s
  | some ti =>
    match s.teams[ti]? with
    | none => s
    | some t =>
      let alive := (s.groupsOf grid team).map Prod.snd |>.filter fun g => !g.gone
      if alive.isEmpty then s
      else
        let least (b : Nat) : Nat := ((alive.map fun g => (g.arr[b]?).getD 0).min?).getD 0
        let phase := (List.range 16).map fun b => max ((t.phase[b]?).getD 0) (least b)
        let s1 := { s with teams := s.teams.set ti { t with phase := phase } }
        if phase = t.phase then s1
        else s1.modGroups (fun g => g.grid = grid && g.team = team) fun g =>
          match g.wait with
          | .barrier b n => if n ≤ (phase[b]?).getD 0 then g.wake s.cycle else g
          | .sleep _ => g.wake s.cycle
          | _ => g

/-- The cores on which a team has a half, with the half. -/
def Team.sites (t : Team) : List (Nat × Bool) :=
  if t.pair then [(t.core, false), (t.core + 1, true)] else [(t.core, false)]

/-- The bank roles as a list of 2-bit fields with bank b's replaced (spec 18 R322). -/
def setRole (w : W64) (b r : Nat) : W64 :=
  BitVec.ofNat 64 (w.toNat - (w.toNat / 4 ^ b % 4) * 4 ^ b + r * 4 ^ b)

/-- Role of bank b. -/
def roleOf (w : W64) (b : Nat) : Nat := w.toNat / 4 ^ b % 4

/-- A core whose banks serve other roles: the lines that a bank held for L1 leave it when it leaves that role, and a bank that takes it
up is empty (spec 04 R104, 18 R323). -/
def Core.serve (c : Core) (act : W64) : Core :=
  { c with bankact := act, l1 := c.l1.filter fun l => match l.bank with
      | none => true
      | some b => roleOf act b = 1 }

/-- Banks of a core that hold part of some team's allocation. -/
def State.usedBanks (s : State) (core : Nat) : List Nat :=
  s.teams.flatMap fun t => t.sites.flatMap fun (c, odd) =>
    if c = core then (t.half odd).units.map Prod.fst ++ (t.half odd).banks else []

/-- Banks freed by a team take up the role that the driver wants (spec 18 R323). -/
def State.freeBanks (s : State) (core : Nat) (banks : List Nat) : State :=
  let used := s.usedBanks core
  { s with cores := s.cores.modify core fun c =>
      c.serve ((banks.filter fun b => !used.contains b).foldl (fun w b => setRole w b (roleOf c.bankrole b)) c.bankact) }

/-- Arena blocks returned to a context (spec 10 R255, 12 R298). -/
def State.freeBlocks (s : State) (ctx : W32) (addrs : List Nat) : State :=
  let c := s.ctx ctx
  if addrs.isEmpty then s
  else s.setCtx { c with blocks := c.blocks.filter fun b => !addrs.contains b.1,
                         halloced := c.halloced.filter fun a => !addrs.contains a }

/-- A resident team taken off its cores: registers, queues, Stage and Boom are gone with it, its banks are free (spec 01 R38,
18 R323). Fault records that it made stand (19 R338). -/
def State.dropTeam (s : State) (grid team : W32) : State :=
  match s.teamIdx grid team with
  | none => s
  | some ti =>
    match s.teams[ti]? with
    | none => s
    | some t =>
      let gs := (s.groupsOf grid team).map Prod.fst
      let keep (p : Queued) : Bool := !gs.contains p.g
      let s1 : State :=
        { s with teams := s.teams.eraseIdx ti,
                 groups := s.groups.map fun g => if g.grid = grid && g.team = team then { g with live := false, ops := [] } else g,
                 cue := { s.cue with pops := s.cue.pops.filter fun p => !gs.contains p.g },
                 cores := s.cores.map fun c => { c with mxq := c.mxq.filter keep, ntt := c.ntt.filter keep } }
      t.sites.foldl (fun s (c, odd) => s.freeBanks c ((t.half odd).units.map Prod.fst ++ (t.half odd).banks)) s1

/-- Payload of ADMIT, EXIT, PREEMPT and RESTORE (spec 21 R363). -/
def teamPayload (grid team : W32) : Nat := grid.toNat * 2 ^ 33 + team.toNat * 2

/-- A record in the ring of every core on which a team has a half that no reset has taken (spec 21 R363). -/
def State.reelTeam (s : State) (t : Team) (code : Nat) : State :=
  (t.sites.filter fun c => t.lost != some c.2).foldl (fun s (c, _) => s.reel c code (some t.ctx) (teamPayload t.grid t.id)) s

/-- A team exits once every group has exited and every operation has completed (spec 01 R38, 08 R191). -/
def State.teamExit (s : State) (grid team : W32) : State :=
  match (s.teamIdx grid team).bind fun ti => s.teams[ti]? with
  | none => s
  | some t =>
    if (s.groupsOf grid team).all fun (_, g) => g.gone && g.ops.isEmpty && g.redo.isEmpty then
      let s1 := (s.reelTeam t 0x19).dropTeam grid team
      (s1.freeBlocks t.ctx t.stackBlocks).modGrid grid fun g => { g with exited := g.exited + 1, running := g.running - 1 }
    else s

/-- The bytes of an entry of the unrun area (spec 05 R138): gain, then words 1 to 7 with GEN and AFTERCLOSE as given. -/
def entryBytes (gain : W32) (rest : List W32) (gen : Nat) (after : Bool) : List Byte :=
  let w1 := ((rest[0]?).getD 0).toNat
  let flags := w1 / 2 ^ 8 % 128 + (if after then 128 else 0)
  leBytes 4 gain.toNat ++ leBytes 4 (w1 % 2 ^ 8 + flags * 2 ^ 8 + gen * 2 ^ 16)
    ++ (rest.drop 1).flatMap fun w => leBytes 4 w.toNat

/-- Order of entries in one shard: greater gain first, then the lower stamp (spec 05 R142). -/
def CueEntry.before (a b : CueEntry) : Bool := b.gain < a.gain || (a.gain = b.gain && a.stamp < b.stamp)

/-- An entry put into a list ordered by R142. -/
def insertEntry (e : CueEntry) : List CueEntry → List CueEntry
  | [] => [e]
  | x :: xs => if e.before x then e :: x :: xs else x :: insertEntry e xs

/-- Entries in the order of R142. -/
def sortEntries (l : List CueEntry) : List CueEntry := l.foldl (fun acc e => insertEntry e acc) []

/-- The entries of the heap in the order of the write-out (spec 05 R148): die, then shard, then the order of R142. -/
def State.unrunEntries (s : State) : List (List Byte) :=
  s.cue.shards.flatMap fun sh => (sortEntries sh.entries).map fun e => entryBytes e.gain e.rest e.gen.toNat false

/-- Entries written to a grid's unrun area from place n on, in turn, up to the first that faults; the result says how many were, and
whether all. -/
def State.writeUnrun (s : State) (g : Grid) : Nat → List (List Byte) → State × Nat × Bool
  | n, [] => (s, n, true)
  | n, bs :: rest =>
    match s.writeD g.ctx (g.packet.unrun.toNat + 32 * n) bs with
    | none => (s, n, false)
    | some s1 => State.writeUnrun s1 g (n + 1) rest

/-- The write-out of the live entries to the unrun area (spec 05 R148), after which CUESTATE is closed. Where a write faults the
result is false: what was written before it stands (18 R314). DESIGN CHOICE: CUNRUN then counts the entries written before the fault,
of which R148 and R314 say nothing (log 88). -/
def State.cueWriteOut (s : State) (grid : W32) : State × Bool :=
  match s.grid? grid with
  | none => (s, true)
  | some g =>
    let r := s.writeUnrun g g.cunrun.toNat s.unrunEntries
    let s1 := r.1.modGrid grid fun g => { g with cunrun := BitVec.ofNat 32 r.2.1 }
    if r.2.2 then
      (({ s1 with cue := { s1.cue with shards := s1.cue.shards.map fun sh => { sh with entries := [] } } } : State).modGrid grid
        fun g => { g with cuestate := 2 }, true)
    else (s1, false)

/-- The completion record (spec 18 R321). A grid without .cue writes its Cue fields as 0. -/
def Grid.recordBytes (g : Grid) (status : Nat) : List Byte :=
  let cue := g.kobj.flags.getLsbD 3
  leBytes 4 status ++ leBytes 4 g.id.toNat ++ leBytes 4 g.gcnt.toNat ++ leBytes 4 (if cue then g.cunrun.toNat else 0)
    ++ leBytes 8 (if cue then g.cuestate.toNat else 0) ++ leBytes 8 (if cue then g.resid.toNat else 0)

/-- The completion record, then the completion word set to the greater of itself and DONEVAL by a read-modify-write, which asks only
that the page may be written (spec 18 R314, 19 R333). The result says whether every write was made. The word comes after the record, and
where the record faults it is not written, unless the context is fatal already (again). -/
def State.completionWrites (s : State) (g : Grid) (status : Nat) (again : Bool := false) : State × Bool :=
  let r1 := if g.packet.recaddr = 0 then (s, true)
    else match s.writeD g.ctx g.packet.recaddr.toNat (g.recordBytes status) with
      | some s1 => (s1, true)
      | none => (s, false)
  if g.packet.doneaddr = 0 || !(r1.2 || again) then r1
  else
    match r1.1.readD g.ctx g.packet.doneaddr.toNat 8 .atomic with
    | none => (r1.1, false)
    | some bs =>
      match r1.1.writeD g.ctx g.packet.doneaddr.toNat (leBytes 8 (max (leNat bs) g.packet.doneval.toNat)) with
      | some s1 => (s1, r1.2)
      | none => (r1.1, false)

/-- A completed grid forgotten; the heap it owned is free and its slot counters restart at 1 (spec 05 R149). -/
def State.forgetGrid (s : State) (id : W32) : State :=
  { s with grids := s.grids.filter fun g => g.id != id,
           waiting := s.waiting.filter fun t => t.1 != id,
           cue := if s.cue.owner = some id then { Cue.reset with stamps := s.cue.stamps } else s.cue }

/-- A fatal fault detected at a ring: FATAL stamped Tf in it, and the ring frozen; the freeze is then under way to every
other ring. A ring that is already frozen only counts it (spec 21 R369, R371). -/
def State.fatal (s : State) (ring : Nat) (ctx : Option W32) (slot level cause : Nat) : State :=
  if ((s.rings[ring]?).map Ring.frozen).getD false then s.reel ring 0x30 ctx slot
  else
    let s1 := s.reel ring 0x30 ctx (slot + level * 2 ^ 53 + cause * 2 ^ 45)
    let first := !s.assembling
    { s1 with rings := s1.rings.modify ring fun r => { r with frozen := true },
              tf := if first then s.nstime else s.tf,
              origin := if first || (s.tf = s.nstime && ring < s.origin) then ring else s.origin,
              assembling := true }

/-- The address of launch queue q's descriptor (spec 18 R311; log 13: the table's address is taken as physical). -/
def State.lqAddr (s : State) (q : Nat) : Nat := s.lqbase.toNat / 2 ^ 12 * 2 ^ 12 % 2 ^ 57 + 64 * q

/-- Bytes of a queue's descriptor (spec 18 R311). DESIGN CHOICE: one that cannot be read, where no memory is or a line is poisoned,
reads as 0, so that its queue is not enabled; R311 is silent (log 94). -/
def State.lqRead (s : State) (q off n : Nat) : Nat :=
  let pa := s.lqAddr q + off
  if (s.physWhy pa true).isSome then 0 else leNat (s.readDev pa n none)

/-- Bytes of a queue's descriptor written (spec 18 R311). DESIGN CHOICE: where it cannot be, the write is dropped (log 94). -/
def State.lqWrite (s : State) (q off n v : Nat) : State :=
  let pa := s.lqAddr q + off
  if (s.physWhy pa false).isSome then s else s.writeDev pa (leBytes n v) none

/-- The queues of a context get EN 0 (spec 19 R342). -/
def State.stopQueues (s : State) (ctx : W32) : State :=
  (List.range 256).foldl (fun s q =>
    let pri := s.lqRead q 24 1
    if 128 ≤ pri && s.lqRead q 20 4 = ctx.toNat then s.lqWrite q 24 1 (pri - 128) else s) s

/-- What a fatal fault does to a context (spec 19 R342): every group of it stops, its engine operations are abandoned, its queues get
EN 0, and nothing of its grids is dispatched any more. Each grid completes once the abandoned operations have stopped writing. -/
def State.contain (s : State) (ctx : W32) : State :=
  let s1 := (s.setCtx { s.ctx ctx with fatal := true }).stopQueues ctx
  let stays (gi : Nat) : Bool := !((s1.groups[gi]?).any fun g => g.live && g.ctx = ctx)
  let keep (q : Queued) : Bool := stays q.g
  { s1 with groups := s1.groups.map fun g => if g.live && g.ctx = ctx then { g with live := false } else g,
            teams := s1.teams.map fun t => if t.ctx = ctx then
              { t with pushWait := [], popWait := [], rv := [], claims := [], pairEven := [], pairOdd := [] } else t,
            waiting := s1.waiting.filter fun t => !((s1.grid? t.1).any fun g => g.ctx = ctx),
            cue := { s1.cue with pops := s1.cue.pops.filter fun p => stays p.g },
            cores := s1.cores.map fun c => { c with mxq := c.mxq.filter keep, ntt := c.ntt.filter keep },
            grids := s1.grids.map fun g => if g.ctx = ctx then { g with fatal := true } else g }

/-- A fault that is fatal to a context: recorded, with Reel freezing, and contained (spec 19 R342). -/
def State.contextFatal (s : State) (ctx : W32) (ring slot cause : Nat) : State := (s.fatal ring (some ctx) slot 0 cause).contain ctx

/-- A signal to a core that was reset since it was sent is dropped and counted; kind as a pending signal's (spec 19 R340, R341, 21
R363). -/
def State.sigDrop (s : State) (target kind : Nat) : State :=
  let s1 : State := { s with dies := s.dies.modify (dieOf target) fun d => { d with sigdrop := sat32 d.sigdrop 1 } }
  s1.reel (144 + dieOf target) 0x1D none (kind * 2 ^ 57 + target)

/-- The ring in which the device's own faults in a grid's name are recorded: that of die 0 (log 14). -/
def dispatcherRing : Nat := 144

/-- A grid completes with status OK (spec 01 R41, 18 R314, 05 R149): a heap it owns while CUESTATE is not closed is written out
first. A write that faults is fatal to the context, with cause 0x84. -/
def State.completeGrid (s : State) (id : W32) : State :=
  match s.grid? id with
  | none => s
  | some g0 =>
    let w := if s.cue.owner = some id && g0.cuestate != 2 then s.cueWriteOut id else (s, true)
    if !w.2 then w.1.contextFatal g0.ctx dispatcherRing noSlot 0x84
    else
      match w.1.grid? id with
      | none => w.1
      | some g =>
        let r := w.1.completionWrites g 0
        if r.2 then r.1.forgetGrid id else r.1.contextFatal g.ctx dispatcherRing noSlot 0x84

/-- A grid of a fatal context completes with CTXFATAL: its teams leave their cores, and its completion is written as far as it can be
(spec 19 R342, 18 R314). DESIGN CHOICE: their stack blocks stay taken in the context's arena; R298 returns them at team exit, and R342
does not say that such a team exits (log 93). -/
def State.completeFatal (s : State) (id : W32) : State :=
  match s.grid? id with
  | none => s
  | some g =>
    let s1 := (s.teams.filter fun t => t.grid = id).foldl (fun s t => s.dropTeam t.grid t.id) s
    (s1.completionWrites g 0x56 true).1.forgetGrid id

end Sys2Proof.Machine
end

