-- ==== Sys2Proof/Machine/Numeric.lean ====
section
/-! DEFINITION. Number formats, rounding, float arithmetic and the exact helpers of spec 03 (R69 to R94). -/

namespace Sys2Proof.Machine

/-- The unsigned pattern of an integer in n bits (spec 03 R94, wrap). -/
def wrapN (x : Int) (n : Nat) : Nat := (x % (2 ^ n : Nat)).toNat

/-- The signed value of an n-bit pattern (spec 03 R94, sext). -/
def sextN (p n : Nat) : Int :=
  let q := p % 2 ^ n
  if n != 0 && 2 ^ (n - 1) ≤ q then (q : Int) - (2 ^ n : Nat) else q

/-- The value of an integer pattern under a type's signedness. -/
def intVal (ty p : Nat) : Int := if tySigned ty then sextN p (tyBits ty) else (p % 2 ^ tyBits ty : Nat)

/-- The range of an integer type (spec 03 R69). -/
def intRange (ty : Nat) : Int × Int :=
  let n := tyBits ty
  if tySigned ty then (-(2 ^ (n - 1) : Nat), (2 ^ (n - 1) : Nat) - 1) else (0, (2 ^ n : Nat) - 1)

/-- x held within bounds (spec 03 R94, sat). -/
def satI (x lo hi : Int) : Int := min (max x lo) hi

/-- The result step of the integer forms: wrap, or clamp under SAT (spec 08 R203, 09 R214). -/
def intResult (ty : Nat) (sat : Bool) (x : Int) : Nat :=
  let r := intRange ty
  wrapN (if sat then satI x r.1 r.2 else x) (tyBits ty)

/-- A float or binary8 format: trailing significand bits, bias, code of the largest finite magnitude, of infinity where there
is one, width, sign bit (spec 03 R74, R78). -/
structure Fmt where
  b8 : Bool
  width : Nat
  t : Nat
  bias : Nat
  signed : Bool
  hasInf : Bool
  maxCode : Nat
deriving DecidableEq, Repr

/-- The format of a float or binary8 type code with its precision (spec 03 R72 to R78). -/
def fmtOf (ty prec : Nat) : Fmt :=
  let ieee (w t e : Nat) : Fmt :=
    { b8 := false, width := w, t := t, bias := 2 ^ (e - 1) - 1, signed := true, hasInf := true, maxCode := (2 ^ e - 1) * 2 ^ t - 1 }
  match ty with
  | 8 => ieee 16 10 5
  | 9 => ieee 16 7 8
  | 10 => ieee 32 23 8
  | 11 => ieee 64 52 11
  | _ =>
    let signed := ty = 0x10 || ty = 0x11
    let hasInf := ty = 0x10 || ty = 0x12
    { b8 := true, width := 8, t := prec - 1, bias := 2 ^ ((if signed then 7 else 8) - prec), signed := signed, hasInf := hasInf,
      maxCode := (if signed then 0x7F else 0xFE) - (if hasInf then 1 else 0) }

/-- A decoded value: a NaN with its sign and its payload as 52 bits, the quiet bit on top; an infinity; or (-1)^neg m 2^x. -/
inductive Val where
  | nan (neg : Bool) (payload : Nat)
  | inf (neg : Bool)
  | fin (neg : Bool) (m : Nat) (x : Int)
deriving DecidableEq, Repr

/-- The value of a code (spec 03 R74, R78, R80). -/
def decodeF (f : Fmt) (code : Nat) : Val :=
  let c := code % 2 ^ f.width
  if f.b8 then
    let neg := f.signed && 128 ≤ c
    let mag := if f.signed then c % 128 else c
    if c = (if f.signed then 0x80 else 0xFF) then .nan false (2 ^ 51)
    else if f.hasInf && mag = f.maxCode + 1 then .inf neg
    else
      let e := mag / 2 ^ f.t
      let g := mag % 2 ^ f.t
      if e = 0 then .fin neg g (1 - (f.bias : Int) - f.t) else .fin neg (2 ^ f.t + g) ((e : Int) - f.bias - f.t)
  else
    let neg := 2 ^ (f.width - 1) ≤ c
    let mag := c % 2 ^ (f.width - 1)
    let e := mag / 2 ^ f.t
    let g := mag % 2 ^ f.t
    if f.maxCode < mag then (if g = 0 then .inf neg else .nan neg (g * 2 ^ (52 - f.t)))
    else if e = 0 then .fin neg g (1 - (f.bias : Int) - f.t)
    else .fin neg (2 ^ f.t + g) ((e : Int) - f.bias - f.t)

/-- Rounding rules: nearest with ties to even or away, towards zero, and the directed modes (spec 03 R81, R82). -/
inductive Rnd where
  | even | away | zero | down | up
deriving DecidableEq, Repr

/-- The mode of the RM field (spec 03 R82). -/
def rmMode (rm : Nat) : Rnd :=
  match rm with
  | 0 => .even
  | 1 => .zero
  | 2 => .down
  | _ => .up

/-- How a result of a format is rounded (spec 03 R81). -/
def fmtRnd (f : Fmt) (rm : Nat) : Rnd := if f.width < 16 then .away else rmMode rm

/-- Number of bits of a natural number. -/
def bitLen (m : Nat) : Nat := if m = 0 then 0 else Nat.log2 m + 1

/-- Whether a magnitude is rounded up: q its kept part, rem of 2^sh dropped, more whether something beyond rem was dropped. -/
def roundsUp (r : Rnd) (neg : Bool) (q rem sh : Nat) (more : Bool) : Bool :=
  let inexact := rem != 0 || more
  let half := 2 ^ (sh - 1)
  match r with
  | .zero => false
  | .down => neg && inexact
  | .up => !neg && inexact
  | .even => sh != 0 && (half < rem || (half = rem && (more || q % 2 = 1)))
  | .away => sh != 0 && half ≤ rem

/-- The code of the magnitude m 2^x (plus something below m's last bit when more) rounded to a format whose exponent has no
upper bound (spec 03 R83). -/
def roundCode (f : Fmt) (r : Rnd) (neg : Bool) (m : Nat) (x : Int) (more : Bool) : Nat :=
  if m = 0 && !more then 0
  else
    let emin : Int := 1 - (f.bias : Int) - f.t
    let q : Int := max (x + bitLen m - (f.t + 1 : Nat)) emin
    let sh := (q - x).toNat
    let k := if q ≤ x then m <<< (x - q).toNat else m >>> sh
    let rem := if q ≤ x then 0 else m % 2 ^ sh
    let k := if roundsUp r neg k rem sh more then k + 1 else k
    let e := (q - emin).toNat
    if k < 2 ^ f.t then k else (e + 1) * 2 ^ f.t + (k - 2 ^ f.t)

/-- The sign bit of a format. -/
def signBit (f : Fmt) (neg : Bool) : Nat := if neg && f.signed then 2 ^ (f.width - 1) else 0

/-- The NaN code of a format that a NaN with a payload gives (spec 03 R76, R83). -/
def nanCode (f : Fmt) (neg : Bool) (payload : Nat) : Nat :=
  if f.b8 then (if f.signed then 0x80 else 0xFF)
  else signBit f neg + (f.maxCode + 1) + (payload / 2 ^ (52 - f.t) ||| 2 ^ (f.t - 1))

/-- The default NaN (spec 03 R76). -/
def defaultNan : Val := .nan false (2 ^ 51)

/-- The code of an infinity, or what stands for it (spec 03 R83). -/
def infCode (f : Fmt) (neg sat : Bool) : Nat :=
  if neg && !f.signed then (if sat then 0 else 0xFF)
  else if sat then signBit f neg + f.maxCode
  else if f.hasInf then signBit f neg + f.maxCode + 1
  else nanCode f false 0

/-- The code of a finite value with sticky information (spec 03 R83, R94, encode). -/
def encodeFin (f : Fmt) (sat : Bool) (rm : Nat) (neg : Bool) (m : Nat) (x : Int) (more : Bool) : Nat :=
  let c := roundCode f (fmtRnd f rm) neg m x more
  if c = 0 then (if f.b8 then 0 else signBit f neg)
  else if neg && !f.signed then (if sat then 0 else 0xFF)
  else if c ≤ f.maxCode then signBit f neg + c
  else if sat then signBit f neg + f.maxCode
  else if !f.hasInf then nanCode f false 0
  else
    let toMax := match fmtRnd f rm with
      | .zero => true
      | .down => !neg
      | .up => neg
      | _ => false
    signBit f neg + (if toMax then f.maxCode else f.maxCode + 1)

/-- encode(x, fmt, sat, rm) of spec 03 R94. -/
def encodeV (f : Fmt) (sat : Bool) (rm : Nat) (v : Val) : Nat :=
  match v with
  | .nan neg p => nanCode f neg p
  | .inf neg => infCode f neg sat
  | .fin neg m x => encodeFin f sat rm neg m x false

/-- A value negated. -/
def Val.neg : Val → Val
  | .nan n p => .nan n p
  | .inf n => .inf !n
  | .fin n m x => .fin (!n) m x

/-- Whether a value is a NaN. -/
def Val.isNan : Val → Bool
  | .nan _ _ => true
  | _ => false

/-- The NaN result of operands: the first NaN among them, else the default (spec 03 R76). -/
def nanResult (vs : List Val) : Val := (vs.find? Val.isNan).getD defaultNan

/-- The signed integer multiple of 2^x. -/
def signedM (neg : Bool) (m : Nat) : Int := if neg then -(m : Int) else m

/-- The exact sum of two values; an exact zero takes its sign from R75 (spec 03 R75, R76). -/
def addV (a b : Val) (rm : Nat) : Val :=
  match a, b with
  | .nan _ _, _ => a
  | _, .nan _ _ => b
  | .inf n, .inf k => if n = k then a else defaultNan
  | .inf _, _ => a
  | _, .inf _ => b
  | .fin n m x, .fin k p y =>
    let z := min x y
    let s := signedM n (m <<< (x - z).toNat) + signedM k (p <<< (y - z).toNat)
    if s = 0 then .fin (if m = 0 && p = 0 && n = k then n else rm = 2) 0 z else .fin (s < 0) s.natAbs z

/-- The exact product of two values (spec 03 R76). -/
def mulV (a b : Val) : Val :=
  match a, b with
  | .nan _ _, _ => a
  | _, .nan _ _ => b
  | .inf n, .inf k => .inf (n != k)
  | .inf n, .fin k p _ => if p = 0 then defaultNan else .inf (n != k)
  | .fin n m _, .inf k => if m = 0 then defaultNan else .inf (n != k)
  | .fin n m x, .fin k p y => .fin (n != k) (m * p) (x + y)

/-- a b + c exactly, with the NaN of the first operand that is one (spec 09 R219). -/
def fmaV (a b c : Val) (rm : Nat) : Val :=
  if a.isNan || b.isNan || c.isNan then nanResult [a, b, c] else addV (mulV a b) c rm

/-- The integer square root by digits, fuel bits of result. -/
def isqrtAux (n : Nat) : Nat → Nat → Nat
  | 0, r => r
  | k + 1, r => let c := r + 2 ^ k
                isqrtAux n k (if c * c ≤ n then c else r)

/-- The floor of the square root. -/
def isqrt (n : Nat) : Nat := isqrtAux n (bitLen n / 2 + 1) 0

/-- A quotient of magnitudes rounded to a format (spec 09 R219). -/
def divFin (f : Fmt) (sat : Bool) (rm : Nat) (neg : Bool) (m : Nat) (x : Int) (p : Nat) (y : Int) : Nat :=
  let k := f.t + 4 + bitLen p
  let n := m <<< k
  encodeFin f sat rm neg (n / p) (x - y - k) (n % p != 0)

/-- a / b (spec 09 R219). -/
def divV (f : Fmt) (sat : Bool) (rm : Nat) (a b : Val) : Nat :=
  match a, b with
  | .nan _ _, _ | _, .nan _ _ => encodeV f sat rm (nanResult [a, b])
  | .inf _, .inf _ => encodeV f sat rm defaultNan
  | .inf n, .fin k _ _ => encodeV f sat rm (.inf (n != k))
  | .fin n _ _, .inf k => encodeV f sat rm (.fin (n != k) 0 0)
  | .fin n m x, .fin k p y =>
    if p = 0 then (if m = 0 then encodeV f sat rm defaultNan else encodeV f sat rm (.inf (n != k)))
    else if m = 0 then encodeV f sat rm (.fin (n != k) 0 0)
    else divFin f sat rm (n != k) m x p y

/-- The square root (spec 09 R219). -/
def sqrtV (f : Fmt) (sat : Bool) (rm : Nat) (a : Val) : Nat :=
  match a with
  | .nan _ _ => encodeV f sat rm a
  | .inf n => encodeV f sat rm (if n then defaultNan else a)
  | .fin n m x =>
    if m = 0 then encodeV f sat rm a
    else if n then encodeV f sat rm defaultNan
    else
      let k := 2 * (f.t + 4) + (if x % 2 = 0 then 0 else 1)
      let w := m <<< k
      let r := isqrt w
      encodeFin f sat rm false r ((x - k) / 2) (r * r != w)

/-- The reciprocal square root: 2^k over the root is the root of 2^(2k) / m (spec 09 R219). -/
def rsqrtV (f : Fmt) (sat : Bool) (rm : Nat) (a : Val) : Nat :=
  match a with
  | .nan _ _ => encodeV f sat rm a
  | .inf n => encodeV f sat rm (if n then defaultNan else .fin false 0 0)
  | .fin n m x =>
    if m = 0 then encodeV f sat rm (.inf n)
    else if n then encodeV f sat rm defaultNan
    else
      let odd := x % 2 != 0
      let m := if odd then 2 * m else m
      let x := if odd then x - 1 else x
      let k := bitLen m + f.t + 4
      let r := isqrt (2 ^ (2 * k) / m)
      encodeFin f sat rm false r (-(x / 2) - k) (r * r * m != 2 ^ (2 * k))

/-- Fixed-point precision of the transcendental forms, in bits. -/
def fx : Nat := 320

/-- Sum of the series whose term j + 1 is term j times num over den j, in fixed point: fuel terms. -/
def seriesAux (num : Int) (den : Nat → Nat) : Nat → Nat → Int → Int → Int
  | 0, _, _, acc => acc
  | n + 1, j, term, acc => seriesAux num den n (j + 1) ((term * num) / ((2 ^ fx : Nat) * (den j : Int))) (acc + term)

/-- Sum of z^(2j+1) / (2j+1) in fixed point. -/
def atanhAux (z2 : Int) : Nat → Nat → Int → Int → Int
  | 0, _, _, acc => acc
  | n + 1, j, p, acc => atanhAux z2 n (j + 1) ((p * z2) / (2 ^ fx : Nat)) (acc + p / ((2 * j + 1 : Nat) : Int))

/-- ln 2 in fixed point: 2 atanh (1/3). -/
def ln2Fx : Int := 2 * atanhAux ((2 ^ fx : Nat) / 9) 110 0 ((2 ^ fx : Nat) / 3) 0

/-- atan of 1/k in fixed point. -/
def atanInv (k : Nat) : Int := atanhAux (-((2 ^ fx : Nat) / (k * k : Int))) 150 0 ((2 ^ fx : Nat) / (k : Int)) 0

/-- π in fixed point: 16 atan (1/5) - 4 atan (1/239). -/
def piFx : Int := 16 * atanInv 5 - 4 * atanInv 239

/-- Bound on the error of the fixed-point results below, in units of their last place. -/
def fxErr : Int := 2 ^ 20

/-- The code of a magnitude known in fixed point, times 2^x, up to fxErr; the free value where the bound does not decide the
rounding (spec 09 R219; log 20). -/
def encodeApprox (form ty : Nat) (f : Fmt) (sat : Bool) (rm code : Nat) (neg : Bool) (v : Int) (x : Int) : Nat :=
  let lo := encodeFin f sat rm neg (v - fxErr).toNat (x - fx) true
  let hi := encodeFin f sat rm neg (v + fxErr).toNat (x - fx) true
  if lo = hi then lo else (Config.freeFloat form ty code).toNat % 2 ^ f.width

/-- The fraction m 2^x, below 2^4, in fixed point. -/
def toFx (m : Nat) (x : Int) : Int :=
  let k := x + fx
  if 0 ≤ k then (m <<< k.toNat : Nat) else (m >>> (-k).toNat : Nat)

/-- 2^a (spec 09 R219). -/
def exp2V (ty : Nat) (f : Fmt) (sat : Bool) (rm code : Nat) (a : Val) : Nat :=
  match a with
  | .nan _ _ => encodeV f sat rm a
  | .inf n => encodeV f sat rm (if n then .fin false 0 0 else a)
  | .fin n m x =>
    if m = 0 then encodeV f sat rm (.fin false 1 0)
    else if 12 < x + bitLen m then
      encodeFin f sat rm false 1 (if n then -5000 else 5000) true
    else if x + bitLen m < -80 then
      encodeFin f sat rm false (if n then 2 ^ 200 - 1 else 2 ^ 200) (-200) true
    else
      let v := signedM n (if 0 ≤ x then m <<< x.toNat else m)
      let d : Nat := if 0 ≤ x then 0 else (-x).toNat
      let k := v / (2 ^ d : Nat)
      let fr := (v % (2 ^ d : Nat)).toNat
      if fr = 0 then encodeFin f sat rm false 1 k false
      else
        let y := toFx fr (-(d : Int)) * ln2Fx / (2 ^ fx : Nat)
        encodeApprox 0x7C ty f sat rm code false (seriesAux y (fun j => j + 1) 90 0 (2 ^ fx : Nat) 0) k

/-- log2 of a (spec 09 R219). -/
def log2V (ty : Nat) (f : Fmt) (sat : Bool) (rm code : Nat) (a : Val) : Nat :=
  match a with
  | .nan _ _ => encodeV f sat rm a
  | .inf n => encodeV f sat rm (if n then defaultNan else a)
  | .fin n m x =>
    if m = 0 then encodeV f sat rm (.inf true)
    else if n then encodeV f sat rm defaultNan
    else
      let l := bitLen m
      let e0 : Int := x + l - 1
      if m = 2 ^ (l - 1) then encodeFin f sat rm (e0 < 0) e0.natAbs 0 false
      else
        let big := 4 * 2 ^ (l - 1) < 3 * m
        let e : Int := if big then e0 + 1 else e0
        let one : Int := if big then (2 ^ l : Nat) else (2 ^ (l - 1) : Nat)
        let z := ((m : Int) - one) * (2 ^ fx : Nat) / ((m : Int) + one)
        let ln := 2 * atanhAux (z * z / (2 ^ fx : Nat)) 120 0 z 0
        let r := e * (2 ^ fx : Nat) + ln * (2 ^ fx : Nat) / ln2Fx
        encodeApprox 0x7D ty f sat rm code (r < 0) r.natAbs 0

/-- The magnitude of sin (π t) for t = p 2^-d in (0, 1/2], as a code with a sign: exact at 1/2, by π t where t is tiny. -/
def sinHalf (form ty : Nat) (f : Fmt) (sat : Bool) (rm code : Nat) (neg : Bool) (p d : Nat) : Nat :=
  if 2 * p = 2 ^ d then encodeFin f sat rm neg 1 0 false
  else if bitLen p + 80 < d then
    let w := ((p : Int) * piFx).toNat * 2 ^ 200
    let hi := encodeFin f sat rm neg (w + w / 2 ^ 250) (-(fx : Int) - d - 200) true
    let lo := encodeFin f sat rm neg (w - w / 2 ^ 150) (-(fx : Int) - d - 200) true
    if lo = hi then hi else (Config.freeFloat form ty code).toNat % 2 ^ f.width
  else
    let t := toFx p (-(d : Int))
    let y := t * piFx / (2 ^ fx : Nat)
    let y2 := y * y / (2 ^ fx : Nat)
    encodeApprox form ty f sat rm code neg (seriesAux (-y2) (fun j => (2 * j + 2) * (2 * j + 3)) 60 0 y 0) 0

/-- sin (π v 2^-d) for an integer v; an exact zero has the sign given (spec 09 R219). -/
def sinPi (form ty : Nat) (f : Fmt) (sat : Bool) (rm code : Nat) (v : Int) (d : Nat) (zeroNeg : Bool) : Nat :=
  let r := (v % (2 ^ (d + 1) : Nat)).toNat
  let neg := 2 ^ d ≤ r
  let h := r % 2 ^ d
  let q := if 2 * h ≤ 2 ^ d then h else 2 ^ d - h
  if q = 0 then encodeV f sat rm (.fin zeroNeg 0 0) else sinHalf form ty f sat rm code neg q d

/-- sinPi (spec 09 R219). -/
def sinV (ty : Nat) (f : Fmt) (sat : Bool) (rm code : Nat) (a : Val) : Nat :=
  match a with
  | .nan _ _ => encodeV f sat rm a
  | .inf _ => encodeV f sat rm defaultNan
  | .fin n m x =>
    if m = 0 then encodeV f sat rm a
    else
      let d : Nat := if 0 ≤ x then 0 else (-x).toNat
      sinPi 0x7E ty f sat rm code (signedM n (if 0 ≤ x then m <<< x.toNat else m)) d n

/-- cosPi, as sinPi of 1/2 less a; where a is tiny it lies just below 1 (spec 09 R219). -/
def cosV (ty : Nat) (f : Fmt) (sat : Bool) (rm code : Nat) (a : Val) : Nat :=
  match a with
  | .nan _ _ => encodeV f sat rm a
  | .inf _ => encodeV f sat rm defaultNan
  | .fin n m x =>
    if m = 0 then encodeV f sat rm (.fin false 1 0)
    else if x + bitLen m < -60 then encodeFin f sat rm false (2 ^ 200 - 1) (-200) true
    else
      let d : Nat := if 0 ≤ x then 1 else (-x).toNat + 1
      let v := signedM n (if 0 ≤ x then m <<< (x.toNat + 1) else 2 * m)
      sinPi 0x7F ty f sat rm code ((2 ^ (d - 1) : Nat) - v) d false

/-- A finite magnitude rounded to an integer (spec 03 R81, R84). -/
def roundInt (r : Rnd) (neg : Bool) (m : Nat) (x : Int) : Nat :=
  if 0 ≤ x then m <<< x.toNat
  else
    let sh := (-x).toNat
    let q := m >>> sh
    if roundsUp r neg q (m % 2 ^ sh) sh false then q + 1 else q

/-- A value rounded to an integral value of its own format (spec 09 R222). -/
def rndV (f : Fmt) (rm : Nat) (a : Val) : Nat :=
  match a with
  | .fin n m x => if m = 0 then encodeV f false rm a else encodeV f false rm (.fin n (roundInt (fmtRnd f rm) n m x) 0)
  | _ => encodeV f false rm a

/-- A float converted to an integer type (spec 03 R84). -/
def floatToInt (ty : Nat) (sat : Bool) (a : Val) : Nat :=
  let r := intRange ty
  let n := tyBits ty
  let indef := if tySigned ty then 2 ^ (n - 1) else 0
  match a with
  | .nan _ _ => if sat then 0 else indef
  | .inf neg => if sat then wrapN (if neg then r.1 else r.2) n else indef
  | .fin neg m x =>
    let v := signedM neg (roundInt (if n < 16 then .away else .even) neg m x)
    if r.1 ≤ v && v ≤ r.2 then wrapN v n else if sat then wrapN (satI v r.1 r.2) n else indef

/-- An integer as a value; zero is positive. -/
def ofIntV (x : Int) : Val := .fin (x < 0) x.natAbs 0

/-- A comparison of two values that are no NaN: -1, 0 or 1, with zeros equal. -/
def cmpV (a b : Val) : Int :=
  match a, b with
  | .inf n, .inf k => if n = k then 0 else if n then -1 else 1
  | .inf n, _ => if n then -1 else 1
  | _, .inf k => if k then 1 else -1
  | .fin n m x, .fin k p y =>
    let z := min x y
    let d := signedM n (m <<< (x - z).toNat) - signedM k (p <<< (y - z).toNat)
    if d < 0 then -1 else if d = 0 then 0 else 1
  | _, _ => 0

/-- Whether a value's sign is negative. -/
def Val.isNeg : Val → Bool
  | .nan n _ => n
  | .inf n => n
  | .fin n _ _ => n

/-- FMIN and FMAX of codes: one operand unchanged; -0 below +0; the other operand when exactly one is NaN (spec 09 R220). -/
def minMaxF (f : Fmt) (mx : Bool) (a b : Nat) : Nat :=
  let va := decodeF f a
  let vb := decodeF f b
  if va.isNan && vb.isNan then encodeV f false 0 va
  else if va.isNan then b
  else if vb.isNan then a
  else
    let c := cmpV va vb
    let aBelow := c < 0 || (c = 0 && va.isNeg && !vb.isNeg)
    if mx then (if aBelow then b else a) else if aBelow then a else if c = 0 && va.isNeg = vb.isNeg then a else b

/-- A sum rounded to a format (spec 03 R92, R93). -/
def addF (f : Fmt) (sat : Bool) (rm a b : Nat) : Nat := encodeV f sat rm (addV (decodeF f a) (decodeF f b) rm)

/-- Whether a conversion between float types widens, so that an infinity stays one whatever SAT says: to a wider type, or from
binary8 to an IEEE format (spec 03 R80, R83, 09 R218). DESIGN CHOICE: f16 and bf16, which are of one width, count as narrowing to each
other, so that SAT clamps an infinity (log 75). -/
def widensF (sty ty : Nat) : Bool := tyBits sty < tyBits ty || (tyB8 sty && tyFlt ty)

/-- A conversion between types of one element (spec 09 R218, 03 R80, R83 to R85). SAT clamps an integer that is narrowed; widening
keeps the extended pattern. Between integer types of one width R85 states no use of SAT: clamping there is the model's choice
(log 59). -/
def convert (sty sprec ty prec : Nat) (sat : Bool) (rm p : Nat) : Nat :=
  if tyInt sty then
    let v := intVal sty p
    if tyInt ty then intResult ty (sat && tyBits ty ≤ tyBits sty) v else encodeV (fmtOf ty prec) sat rm (ofIntV v)
  else
    let v := decodeF (fmtOf sty sprec) p
    if tyInt ty then floatToInt ty sat v
    else if sty = ty && sprec = prec && !v.isNan then p % 2 ^ tyBits ty
    else match v with
      | .inf _ => encodeV (fmtOf ty prec) (sat && !widensF sty ty) rm v
      | _ => encodeV (fmtOf ty prec) sat rm v

/-- The class bit of a code (spec 09 R221). -/
def classBit (f : Fmt) (code : Nat) : Nat :=
  match decodeF f code with
  | .nan _ p => if p < 2 ^ 51 then 8 else 9
  | .inf n => if n then 0 else 7
  | .fin n m _ =>
    if m = 0 then (if n then 3 else 4)
    else if m < 2 ^ f.t then (if n then 2 else 5)
    else if n then 1 else 6

/-- The value of a big number: two's complement over its limbs (spec 03 R94). -/
def bignum (limbs : List W32) : Int :=
  sextN ((limbs.foldr (fun l acc => l.toNat + 2 ^ 32 * acc) 0)) (32 * limbs.length)

/-- Least length of an integer: the least L with -2^(32L-1) ≤ x < 2^(32L-1); 0 only for 0 (spec 09 R228). -/
def leastLen (x : Int) : Nat :=
  if x = 0 then 0 else (if 0 ≤ x then bitLen x.toNat + 1 else bitLen (-x - 1).toNat + 1) + 31 |> (· / 32)

/-- Limb i of an integer: bits [32i+31:32i] of its two's complement. -/
def limb (x : Int) (i : Nat) : W32 := BitVec.ofNat 32 (wrapN (x / (2 ^ (32 * i) : Nat)) 32)

/-- The first n limbs of an integer. -/
def limbs (x : Int) (n : Nat) : List W32 := (List.range n).map (limb x)

/-- The carries of carry_prefix (spec 03 R94). -/
def carryPrefix (g p : List Bool) (cin : Bool) : List Bool :=
  cin :: match g, p with
    | x :: gs, y :: ps => carryPrefix gs ps (x || (y && cin))
    | _, _ => []

/-- The modulus of a PFORM value (spec 03 R94). -/
def modulusOf (pf : W32) : Int :=
  let a := (pf.extractLsb' 6 6).toNat
  let b := (pf.extractLsb' 0 6).toNat
  match (pf.extractLsb' 12 2).toNat with
  | 1 => (2 ^ a : Nat) - (2 ^ b : Nat) + 1
  | 2 => (2 ^ a : Nat) + (2 ^ b : Nat) + 1
  | 3 => (2 ^ a : Nat) - (2 ^ b : Nat) - 1
  | _ => 0

/-- FORM of a PFORM value (spec 02 R66). -/
def pformOf (pf : W32) : Nat := (pf.extractLsb' 12 2).toNat

/-- The canonical residue of x (spec 03 R94). -/
def reduceForm (x : Int) (pf : W32) (m : Int) : Int := if pformOf pf = 0 then x % m else x % modulusOf pf

end Sys2Proof.Machine
end

