-- ==== Sys2Proof/Machine/Operands.lean ====
section
/-! DEFINITION. An instruction at its issue: who runs it, what its operand fields read in each lane, which registers it names,
and how a result reaches its destination and the latches (spec 01 R17 to R21, 02 R50 to R64, 03 R71, 06 R158 to R163). -/

namespace Sys2Proof.Machine

/-- The lanes of a mask below a width, rising. -/
def lanesOf (m : Mask) (w : Nat) : List Nat := (List.range w).filter fun i => m.getLsbD i

/-- The set of all lanes below a width. -/
def allLanes (w : Nat) : Mask := BitVec.ofNat 64 (2 ^ w - 1)

/-- The set of one lane. -/
def oneLane (i : Nat) : Mask := BitVec.ofNat 64 (2 ^ i)

/-- The lanes for which a test holds. -/
def maskOf (w : Nat) (f : Nat → Bool) : Mask := (List.range w).foldl (fun m i => if f i then m ||| oneLane i else m) 0

/-- The lane of R17: the lowest active lane, or lane 0 (spec 01 R17). -/
def uniLane (act : Mask) (w : Nat) : Nat := (lanesOf act w).headD 0

/-- A scalar register; s126:s127 is exec (spec 01 R20). -/
def Group.s (g : Group) (k : Nat) : W32 :=
  if k = 126 then g.exec.setWidth 32 else if k = 127 then (g.exec >>> 32).setWidth 32 else (g.sregs[k]?).getD 0

/-- A scalar pair, low word first (spec 02 R51). -/
def Group.s2 (g : Group) (k : Nat) : W64 := g.s (k + 1) ++ g.s k

/-- The lanes whose exec bits can be set: those below the width that are neither parked nor exited (spec 01 R20). -/
def Group.running (g : Group) : Mask := allLanes g.width &&& ~~~(g.parked ||| g.exited)

/-- A scalar register written; of exec only the bits that R20 lets through. -/
def Group.setS (g : Group) (k : Nat) (w : W32) : Group :=
  if k = 126 then { g with exec := ((g.exec >>> 32 <<< 32) ||| w.setWidth 64) &&& g.running }
  else if k = 127 then { g with exec := (g.s 126).setWidth 64 ||| ((w.setWidth 64 <<< 32) &&& g.running) }
  else { g with sregs := g.sregs.set k w }

/-- A scalar pair written. -/
def Group.setS2 (g : Group) (k : Nat) (w : W64) : Group := (g.setS k (w.setWidth 32)).setS (k + 1) ((w >>> 32).setWidth 32)

/-- A lane of a vector register. -/
def Group.v (g : Group) (k lane : Nat) : W32 := ((g.vregs[k]?).bind fun r => r.val[lane]?).getD 0

/-- Whether a lane of a vector register is marked (spec 02 R58). -/
def Group.marked (g : Group) (k lane : Nat) : Bool := ((g.vregs[k]?).map fun r => r.mark.getLsbD lane).getD false

/-- The length tag of a vector register (spec 02 R55). -/
def Group.tag (g : Group) (k : Nat) : Nat := ((g.vregs[k]?).map fun r => r.tag.toNat).getD 0

/-- A predicate of a lane. -/
def Group.p (g : Group) (k lane : Nat) : Bool := ((g.preds[k]?).getD 0).getLsbD lane

/-- The values of a list at the lanes of a mask, the old ones elsewhere. -/
def mergeLanes (old new : List W32) (m : Mask) : List W32 :=
  (List.range old.length).map fun i => if m.getLsbD i then (new[i]?).getD 0 else (old[i]?).getD 0

/-- A vector register written in the lanes of a mask, with marker state and tag (spec 02 R55, R58). -/
def Group.setV (g : Group) (k : Nat) (lanes : Mask) (vals : List W32) (marks : Mask) (tag : Nat) : Group :=
  { g with vregs := g.vregs.modify k fun r =>
      { val := mergeLanes r.val vals lanes, mark := (r.mark &&& ~~~lanes) ||| (marks &&& lanes), tag := BitVec.ofNat 8 tag } }

/-- A predicate written in the lanes of a mask. -/
def Group.setP (g : Group) (k : Nat) (lanes vals : Mask) : Group :=
  { g with preds := g.preds.modify k fun m => (m &&& ~~~lanes) ||| (vals &&& lanes) }

/-- An instruction at its issue. -/
structure Iss where
  gi : Nat
  g : Group
  opc : Nat
  sub : Nat
  e : Enc
deriving Repr

/-- Whether the guard holds on a lane (spec 06 R163, R177). -/
def Iss.guard (x : Iss) (lane : Nat) : Bool := x.e.pg.val = 63 || x.g.p x.e.pg.val lane = !x.e.pn

/-- The lane of R17. -/
def Iss.ul (x : Iss) : Nat := uniLane x.g.exec x.g.width

/-- The qualifying lanes of an instruction with U = 0: active, and the guard holds (spec 01 R21). -/
def Iss.qual (x : Iss) : Mask := maskOf x.g.width fun i => x.g.exec.getLsbD i && x.guard i

/-- Whether the instruction has an effect: with U = 1 the guard holds on the lane of R17, else some lane qualifies. LPCR
chooses its lanes by another rule (spec 08 R202). -/
def Iss.runs (x : Iss) : Bool := if x.e.u then x.guard x.ul else x.opc = 0x17 || x.qual != 0

/-- The lanes on which operands are read: the lane of R17, or the qualifying lanes. -/
def Iss.readers (x : Iss) : List Nat := if x.e.u then [x.ul] else lanesOf x.qual x.g.width

/-- The lanes of a vector register or predicate that are written: every active lane, or the qualifying ones (spec 01 R17). -/
def Iss.writers (x : Iss) : Mask := if x.e.u then x.g.exec else x.qual

/-- Position in the chain: 0 outside one (spec 02 R60). -/
def Iss.pos (x : Iss) : Nat := (x.g.chain.map Chain.pos).getD 0

/-- What latch n holds (spec 02 R61). -/
def Iss.latch (x : Iss) (n : Nat) : LatchVal := ((x.g.chain.bind fun c => c.hist[n]?)).getD .none

/-- A latch's value in a lane. -/
def Iss.latchW (x : Iss) (n lane : Nat) : W32 :=
  match x.latch n with
  | .none => 0
  | .lanes vs => (vs[lane]?).getD 0
  | .mask m => if m.getLsbD lane then 1 else 0
  | .scalar w | .uniform w => w

/-- The float constants of codes 432 to 439 (spec 06 R158): sign and power of two of 0.5 to 4.0 and their negatives. -/
def Iss.fconst (k : Nat) : Val := .fin (4 ≤ k) 1 ((k % 4 : Nat) - 1)

/-- The pattern of an inline integer constant in a type (spec 06 R159). -/
def Iss.intPat (ty prec : Nat) (v : Int) : Nat :=
  if tyInt ty then wrapN v (tyBits ty) else encodeV (fmtOf ty prec) false 0 (ofIntV v)

/-- The word that a source reads in a lane, as a 32-bit operand (spec 06 R159, R177). -/
def Iss.word (x : Iss) (a : Src) (lane : Nat) : W32 :=
  match a with
  | .v n => x.g.v n lane
  | .s n => x.g.s n
  | .int k => BitVec.ofNat 32 k
  | .neg k => BitVec.ofInt 32 ((k.val : Int) - 16)
  | .flt k => BitVec.ofNat 32 (encodeV (fmtOf 10 0) false 0 (Iss.fconst k))
  | .lane => BitVec.ofNat 32 lane
  | .lit => x.e.lit
  | .latch n => x.latchW n lane
  | .rsv _ => 0

/-- The 64 bits that a pair operand reads in a lane; a constant is sign-extended, a literal as told (spec 06 R159, R160). -/
def Iss.pair (x : Iss) (a : Src) (lane : Nat) (sgn : Bool := false) : W64 :=
  match a with
  | .v n => x.g.v (n.val + 1) lane ++ x.g.v n lane
  | .s n => x.g.s2 n
  | .int k => BitVec.ofNat 64 k
  | .neg k => BitVec.ofInt 64 ((k.val : Int) - 16)
  | .lane => BitVec.ofNat 64 lane
  | .lit => if sgn then x.e.lit.signExtend 64 else x.e.lit.setWidth 64
  | _ => (x.word a lane).setWidth 64

/-- Word j of a quad operand in a lane. -/
def Iss.quad (x : Iss) (a : Src) (lane j : Nat) : W32 :=
  match a with
  | .v n => x.g.v (n.val + j) lane
  | .s n => x.g.s (n.val + j)
  | _ => 0

/-- The pattern of element el of an operand of a type in a lane (spec 03 R71, 06 R159). LANE or the literal as an f32 pair under PK
gives both elements the same word; the specification does not say what each gets (log 61). -/
def Iss.elem (x : Iss) (a : Src) (ty prec : Nat) (pk : Bool) (lane el : Nat) : Nat :=
  let n := tyBits ty
  let ofWord (w : W32) : Nat := w.toNat / 2 ^ (n * el % 32) % 2 ^ min n 32
  match a with
  | .int k => Iss.intPat ty prec (k.val : Int)
  | .neg k => Iss.intPat ty prec ((k.val : Int) - 16)
  | .flt k => encodeV (fmtOf ty prec) false 0 (Iss.fconst k)
  | .lit =>
    if n = 64 then
      if ty = 0x0B then encodeV (fmtOf 11 0) false 0 (decodeF (fmtOf 10 0) x.e.lit.toNat)
      else (x.pair a lane (tySigned ty)).toNat
    else ofWord x.e.lit
  | .lane => if n = 64 then lane else ofWord (BitVec.ofNat 32 lane)
  | .v k => if n = 64 then (x.pair a lane).toNat else if n = 32 && pk then (x.g.v (k.val + el) lane).toNat else ofWord (x.word a lane)
  | .s k => if n = 64 then (x.pair a lane).toNat else if n = 32 && pk then (x.g.s (k.val + el)).toNat else ofWord (x.word a lane)
  | _ => ofWord (x.word a lane)

/-- Whether a predicate operand holds in a lane (spec 08 R187). -/
def Iss.pred (x : Iss) (a : Src) (lane : Nat) : Bool :=
  match a with
  | .latch n => (x.latchW n lane).getLsbD 0
  | a => x.g.p (a.toCode.toNat - 384) lane

/-- Element positions of an operation: one, or with PK every element of the register, and two f32 in a pair (spec 09 R210). -/
def Iss.elems (ty : Nat) (pk : Bool) : Nat := if pk then (if tyBits ty = 32 then 2 else 32 / tyBits ty) else 1

/-- The 64 bits of a destination from its element patterns: a lone narrow element is widened by its sign or by zeros, packed
elements stand side by side (spec 09 R210). -/
def Iss.packResult (ty : Nat) (pk : Bool) (ps : List Nat) : W64 :=
  let n := tyBits ty
  if pk then BitVec.ofNat 64 (ps.foldr (fun p acc => p % 2 ^ n + 2 ^ n * acc) 0)
  else
    let p := ps.headD 0
    if n < 32 && tySigned ty then (BitVec.ofInt 32 (sextN p n)).setWidth 64 else BitVec.ofNat 64 (p % 2 ^ n)

/-- The registers of a form beyond those that its operand specs name by width: register, field bit, written (spec 11 R260,
R277, R281, R282, 06 R173). -/
def extraRegs (opc : Nat) (e : Enc) (w : Nat) : List (Res × Nat × Bool) :=
  let range (k n bit : Nat) (wr : Bool) : List (Res × Nat × Bool) := (List.range n).map fun j => (.v (k + j), bit, wr)
  match opc with
  | 0x53 | 0x54 => [(.p 47, 0, false), (.p 47, 0, true)]
  | 0xC0 | 0xC1 =>
    match e.sa with
    | .v k => if e.ctlF 94 94 = 0 then range k (128 / w * (if e.ctlF 111 109 = 3 then 16 else 32) / 4) 32 false else []
    | _ => []
  | 0xD0 => match e.sa with
    | .v k => range k 8 32 false
    | _ => []
  | 0xD1 => match e.dst with
    | .v k => range k 8 23 true
    | _ => []
  | 0xD6 => match e.sa with
    | .v k => if e.ctlF 127 127 = 0 then range k (64 / w) 32 false else []
    | _ => []
  | 0xD7 => if e.ctlF 127 127 = 0 then range (e.ctlF 126 119) (64 / w) 119 true else []
  | 0xDB => [(.s (e.ctlF 127 121), 121, true)]
  | _ => []

/-- The registers that a source names, read or written as its spec says. -/
def srcRegs (o : Opnd) (a : Src) (bit : Nat) (pair : Bool) : List (Res × Nat × Bool) :=
  match o, a with
  | .val _ w _, .v k => (List.range (w.count pair)).map fun j => (.v (k.val + j), bit, false)
  | .val _ w _, .s k => (List.range (w.count pair)).map fun j => (.s (k.val + j), bit, false)
  | .out, .s k => [(.s k, bit, true)]
  | .vout, .v k => [(.v k, bit, true)]
  | .pred, a => let c := a.toCode.toNat
                if 384 ≤ c && c < 432 then [(.p (c - 384), bit, false)] else []
  | _, _ => []

/-- The registers that the destination names. -/
def dstRegs (d : DSpec) (a : Dst) (nw pair : Bool) : List (Res × Nat × Bool) :=
  match d, a with
  | .reg _ _ _ w _, .v k => (List.range (w.count pair)).map fun j => (.v (k.val + j), 23, !nw)
  | .reg _ _ _ w _, .s k => (List.range (w.count pair)).map fun j => (.s (k.val + j), 23, !nw)
  | .reg _ _ _ _ _, .p k => [(.p k, 23, !nw)]
  | .data _, .v k => (List.range (if pair then 2 else 1)).map fun j => (.v (k.val + j), 23, false)
  | .data _, .s k => (List.range (if pair then 2 else 1)).map fun j => (.s (k.val + j), 23, false)
  | _, _ => []

/-- Every register that a form names: register, lowest bit of its field, whether it is written. -/
def namedRegs (opc sub : Nat) (e : Enc) (w : Nat) : List (Res × Nat × Bool) :=
  let sp := spec opc sub e
  let pair := tyPair opc e
  srcRegs sp.sa e.sa 32 (saPair opc e) ++ srcRegs sp.sb e.sb 42 pair ++ srcRegs sp.sc e.sc 64 pair
  ++ srcRegs sp.sd e.sd 118 pair ++ dstRegs sp.dst e.dst e.nw pair ++ extraRegs opc e w

/-- The registers that an instruction reads through a source field or its guard (spec 02 R62). A destination that NW keeps
from being written is named and not read as a source. -/
def readRegs (opc sub : Nat) (e : Enc) (w : Nat) : List Res :=
  let sp := spec opc sub e
  let pair := tyPair opc e
  ((srcRegs sp.sa e.sa 32 (saPair opc e) ++ srcRegs sp.sb e.sb 42 pair ++ srcRegs sp.sc e.sc 64 pair
    ++ srcRegs sp.sd e.sd 118 pair ++ (match sp.dst with | .data _ => dstRegs sp.dst e.dst e.nw pair | _ => [])
    ++ extraRegs opc e w).filter fun r => !r.2.2).map Prod.fst
  ++ (if e.pg.val < 48 then [.p e.pg.val] else [])

/-- The registers that an instruction writes. -/
def writtenRegs (opc sub : Nat) (e : Enc) (w : Nat) : List Res :=
  ((namedRegs opc sub e w).filter fun r => r.2.2).map Prod.fst

/-- The registers of a loop nest: base pairs and the stride registers that a stride of -512 names (spec 06 R174). -/
def nestRegs (e : NestEnc) : List Res :=
  [e.dbase.val, e.abase.val, e.bbase.val].flatMap fun b => [.s b, .s (b + 1)] ++
    (List.range 5).flatMap fun k =>
      (List.range 3).flatMap fun o =>
        let x := if o = 0 then e.dbase.val else if o = 1 then e.abase.val else e.bbase.val
        if x = b && k < nestLevels e && nestStride e o k = -512 then [.s (b + 2 + k)] else []

/-- The destination's unchanged content in a lane; 0 for none (spec 06 R162). -/
def Iss.oldDst (x : Iss) (lane : Nat) : W32 :=
  match x.e.dst with
  | .v k => x.g.v k lane
  | .s k => x.g.s k
  | _ => 0

/-- Whether what a form delivers is one scalar value for the latches: its destination is a scalar register, or it names none and
the form admits no vector register and no predicate (spec 02 R61, 08 R208; log 77). -/
def Iss.scalarOut (x : Iss) : Bool :=
  match x.e.dst with
  | .s _ => true
  | .none => (match (spec x.opc x.sub x.e).dst with
    | .reg v _ p _ _ => !v && !p
    | _ => false)
  | _ => false

/-- A result in every lane that is written, as the group takes it and as the latches hold it (spec 01 R17, 02 R61, 06 R162).
Vector destinations take val lane, clear the marker state but for the lanes of marks, and set the tag to LANEW. A latch from s126 or
s127 holds what R20 lets through, written or not; one without a destination is scalar where the form's results are (log 77). -/
def Iss.deliver (x : Iss) (wide : Bool) (val : Nat → W64) (marks : Mask := 0) : Group × LatchVal :=
  let w := x.g.width
  let lanes := x.writers
  let lo (i : Nat) : W32 := (val i).setWidth 32
  let hi (i : Nat) : W32 := (val i >>> 32).setWidth 32
  match x.e.dst with
  | .p k =>
    let m := maskOf w fun i => (val (if x.e.u then x.ul else i)).getLsbD 0
    let g := if x.e.nw then x.g else x.g.setP k lanes m
    (g, if x.e.u then .uniform (BitVec.ofNat 32 (if (val x.ul).getLsbD 0 then 1 else 0))
        else .mask (((x.g.preds[k.val]?).getD 0 &&& ~~~lanes) ||| (m &&& lanes)))
  | .s k =>
    let r := val (if x.e.u then x.ul else x.readers.headD 0)
    let g := if x.e.nw then x.g else if wide then x.g.setS2 k r else x.g.setS k (r.setWidth 32)
    (g, .scalar (if k.val < 126 then r.setWidth 32 else (x.g.setS k (r.setWidth 32)).s k))
  | d =>
    let at_ (i : Nat) : Nat := if x.e.u then x.ul else i
    let out : LatchVal := if x.scalarOut then .scalar (lo (if x.e.u then x.ul else x.readers.headD 0))
      else if x.e.u then .uniform (lo x.ul)
      else .lanes ((List.range w).map fun i => if lanes.getLsbD i then lo i else x.oldDst i)
    match d with
    | .v k =>
      if x.e.nw || lanes = 0 then (x.g, out)
      else
        let g := x.g.setV k lanes ((List.range w).map fun i => if lanes.getLsbD i then lo (at_ i) else 0) marks w
        (if wide then g.setV (k.val + 1) lanes ((List.range w).map fun i => if lanes.getLsbD i then hi (at_ i) else 0) marks w
         else g, out)
    | _ => (x.g, out)

/-- What the latches hold after an instruction with no effect: the destination's unchanged content (spec 02 R61). -/
def Iss.idle (x : Iss) (hasDst : Bool) : LatchVal :=
  if !hasDst then .none
  else
    match x.e.dst with
    | .p k => .mask ((x.g.preds[k.val]?).getD 0)
    | .s k => .scalar (x.g.s k)
    | .none => if x.scalarOut then .scalar 0 else .lanes ((List.range x.g.width).map x.oldDst)
    | _ => .lanes ((List.range x.g.width).map x.oldDst)

end Sys2Proof.Machine
end

