-- ==== Sys2Proof/Machine/Flags.lean ====
section
/-! DEFINITION. The machine keeps no flag register. What stands for flags: the conditions that compare forms write (spec 06
R167), and the carry and borrow that VADDC and VSUBB keep in predicate p47 (spec 09 R215). -/

namespace Sys2Proof.Machine

/-- An integer comparison (spec 06 R167): EQ, NE, LT, LE, GT, GE. -/
def condInt (cond : Nat) (a b : Int) : Bool :=
  match cond with
  | 0 => a = b
  | 1 => a != b
  | 2 => a < b
  | 3 => a ≤ b
  | 4 => b < a
  | 5 => b ≤ a
  | _ => false

/-- A float comparison: with a NaN only NE and UNORD hold; ORD and UNORD tell whether there is one (spec 06 R167). -/
def condFloat (cond : Nat) (a b : Val) : Bool :=
  let nan := a.isNan || b.isNan
  match cond with
  | 6 => !nan
  | 7 => nan
  | c => if nan then c = 1 else condInt c (cmpV a b) 0

/-- VADDC: sum and carry (spec 09 R215). -/
def addCarry (n a b : Nat) (c : Bool) : Nat × Bool :=
  let x := a + b + (if c then 1 else 0)
  (x % 2 ^ n, 2 ^ n ≤ x)

/-- VSUBB: difference and borrow (spec 09 R215). -/
def subBorrow (n a b : Nat) (c : Bool) : Nat × Bool :=
  let x : Int := (a : Int) - b - (if c then 1 else 0)
  (wrapN x n, x < 0)

/-- The carry bits of a set of lanes put into p47. -/
def setCarry (g : Group) (lanes : Mask) (c : Mask) : Group := g.setP 47 lanes c

end Sys2Proof.Machine
end

