-- ==== Sys2Proof/Machine/Csr.lean ====
section
/-! DEFINITION. The control and status registers: their values, the values they accept, and writes (spec 02 R65, R66, 19
R343, R344). -/

namespace Sys2Proof.Machine

/-- Operations of a class that the counter still counts (spec 02 R57). -/
def Group.cnt (g : Group) (c : Cls) : Nat := (g.ops.filter fun o => o.cls = some c).length

/-- XSTAT (spec 02 R66). -/
def Group.xstat (g : Group) : Nat := (if g.trap then 1 else 0) + (if g.inchain then 2 else 0) + g.chpos.toNat * 4

/-- CORELOC (spec 02 R66). -/
def Group.coreloc (g : Group) : Nat := dieOf g.core * 2 ^ 14 + g.core * 2 ^ 6 + g.quad * 2 ^ 4 + (if g.half then 1 else 0)

/-- SPW (spec 02 R66). -/
def Group.spw (g : Group) : Nat := (if g.spwEn then 2 ^ 31 else 0) + g.spwBase.toNat * 2 ^ 10

/-- The value of a CSR for a group (spec 02 R65, 19 R343). -/
def State.csr (s : State) (g : Group) (c : Nat) : W64 :=
  let r := s.grid? g.grid
  let n (k : Nat) : W64 := BitVec.ofNat 64 k
  if 0x100 ≤ c && c ≤ 0x107 then ((g.pmc[c - 0x100]?).getD 0).setWidth 64
  else if 0x110 ≤ c && c ≤ 0x117 then ((g.pmsel[c - 0x110]?).getD 0).setWidth 64
  else
    match c with
    | 0x000 => n g.idx
    | 0x001 => g.team.setWidth 64
    | 0x002 => g.grid.setWidth 64
    | 0x003 => n g.width
    | 0x004 => g.role.setWidth 64
    | 0x005 => n g.coreloc
    | 0x010 => g.prio.setWidth 64
    | 0x011 => g.cdepth.setWidth 64
    | 0x012 => g.ntthr.setWidth 64
    | 0x013 => g.pform.setWidth 64
    | 0x014 => if g.strict then 1 else 0
    | 0x015 => (r.map Grid.tol).getD 0
    | 0x016 => (r.map Grid.resid).getD 0
    | 0x017 => ((r.map Grid.cuestate).getD 0).setWidth 64
    | 0x018 => ((r.map Grid.cunrun).getD 0).setWidth 64
    | 0x020 => n g.spw
    | 0x021 => g.xbase
    | 0x022 => g.xcause.setWidth 64
    | 0x023 => g.xval
    | 0x024 => g.xpc
    | 0x025 => g.xrpc
    | 0x026 => n g.xstat
    | 0x030 => s.nstime
    | 0x031 => g.tokwait
    | 0x040 => n (g.cnt .ld + g.cnt .st * 2 ^ 8 + g.cnt .xc * 2 ^ 16 + g.cnt .mx * 2 ^ 24)
    | 0x041 => n (g.cnt .nt + g.cnt .ln * 2 ^ 8 + g.cnt .hp * 2 ^ 16 + g.cnt .sk * 2 ^ 24)
    | 0x042 => n (g.cnt .cq)
    | 0x120 => g.pmovf.setWidth 64
    | 0x121 => g.pmctl.setWidth 64
    | _ => 0

/-- Whether a PFORM value obeys R66. -/
def pformOk (w : W64) : Bool :=
  let form := (w.extractLsb' 12 2).toNat
  let a := (w.extractLsb' 6 6).toNat
  let b := (w.extractLsb' 0 6).toNat
  if form = 0 then a = 0 && b = 0 else 20 ≤ a && a ≤ 62 && 1 ≤ b && b + 1 ≤ a

/-- Whether each field of a value is within its range; reserved bits are not looked at (spec 02 R65). -/
def csrOk (c : Nat) (w : W64) : Bool :=
  if c = 0x012 then w.extractLsb' 0 16 != 0
  else if c = 0x013 then pformOk w
  else if 0x110 ≤ c && c ≤ 0x117 then (w.extractLsb' 0 5).toNat ≤ 13
  else true

/-- Whether a CSR is read-only (spec 02 R65). -/
def csrRO (c : Nat) : Bool := ((csrKind c).map Prod.snd).getD true

/-- A CSR of a group written; reserved bits are ignored, PMOVF bits are cleared by ones (spec 02 R65, R66, 19 R343). -/
def Group.setCsr (g : Group) (c : Nat) (w : W64) : Group :=
  if 0x100 ≤ c && c ≤ 0x107 then { g with pmc := g.pmc.set (c - 0x100) (w.setWidth 48) }
  else if 0x110 ≤ c && c ≤ 0x117 then { g with pmsel := g.pmsel.set (c - 0x110) (w.setWidth 5) }
  else
    match c with
    | 0x010 => { g with prio := w.setWidth 2 }
    | 0x011 => { g with cdepth := w.setWidth 4 }
    | 0x012 => { g with ntthr := w.setWidth 16 }
    | 0x013 => { g with pform := (w.setWidth 14).setWidth 32 }
    | 0x014 => { g with strict := w.getLsbD 0 }
    | 0x021 => { g with xbase := BitVec.ofNat 64 (w.toNat % 2 ^ 57 / 32 * 32) }
    | 0x025 => { g with xrpc := w }
    | 0x031 => { g with tokwait := w }
    | 0x120 => { g with pmovf := g.pmovf &&& ~~~(w.setWidth 8) }
    | 0x121 => { g with pmctl := w.setWidth 8 }
    | _ => g

/-- A CSR written by a group: of those of grid scope only TOL is writable (spec 02 R65). -/
def State.setCsr (s : State) (gi : Nat) (g : Group) (c : Nat) (w : W64) : State :=
  if c = 0x015 then s.modGrid g.grid fun r => { r with tol := w }
  else s.setGroup gi (g.setCsr c w)

/-- The value that a CSR form writes (spec 08 R201); sub: 0 swap, 1 set, 2 clear. -/
def csrNew (opc sub : Nat) (old v : W64) : W64 :=
  if opc = 0x15 || sub = 0 then v else if sub = 1 then old ||| v else old &&& ~~~v

end Sys2Proof.Machine
end

