-- ==== Sys2Proof/Machine/Checks.lean ====
section
/-! DEFINITION. What an instruction is checked for at its issue beyond its encoding: the ILLEGAL reasons that depend on the
group (spec 06 R175, R176, 02 R52, R54, R60 to R62) and on operand values, the conditions that stall it (spec 01 R43, 21
R382), and markers in its sources (spec 02 R59). -/

namespace Sys2Proof.Machine

/-- The address after an instruction of n bytes (spec 06 R177). -/
def nextPc (pc : W64) (n : Nat) : W64 :=
  let q := pc + BitVec.ofNat 64 n
  if q.toNat % 32 = 28 then q + 4 else q

/-- Reasons in the address of an instruction of n bytes (spec 06 R153). -/
def pcWhy (pc : W64) (n : Nat) : List Why :=
  let o := pc.toNat % 32
  why (pc.toNat % 4 != 0) 0x01 0 ++ why (o = 28 || 32 < o + n) 0x02 0 ++ why (n = 32 && o != 0) 0x03 0

/-- Reasons in a branch target (spec 06 R170, 08 R193). -/
def targetWhy (t : W64) : List Why := why (t.toNat % 4 != 0) 0x01 0 ++ why (t.toNat % 32 = 28) 0x02 0

/-- The target of a class J form (spec 06 R170). -/
def branchTarget (pc : W64) (e : Enc) : W64 := pc + BitVec.ofInt 64 e.disp

/-- Reasons in the use of a latch by a field (spec 02 R61, 08 R208). -/
def latchWhy (x : Iss) (o : Opnd) (a : Src) (bit : Nat) : List Why :=
  match o, a with
  | .unused, _ | .disp, _ | .stype, _ | .csr, _ => []
  | _, .latch n =>
    let v := x.latch n
    let scalar := match v with
      | .scalar _ => true
      | _ => false
    why (x.pos ≤ n.val || v = .none || (scalar && (x.opc = 0x45 || x.opc = 0x47 || x.opc = 0x48))) 0x14 bit
  | _, _ => []

/-- Reasons in chain membership: more than eight members, or a write of a register that the chain has read (spec 02 R60,
R62). -/
def chainWhy (x : Iss) : List Why :=
  let reads := readRegs x.opc x.sub x.e x.g.width ++ (x.g.chain.map Chain.reads).getD []
  why (x.e.ch && (7 ≤ x.pos || (writtenRegs x.opc x.sub x.e x.g.width).any fun r => reads.contains r)) 0x13 15

/-- Whether a source field holds no reserved code (spec 06 R158). -/
def srcKinded (a : Src) : Bool :=
  match a with
  | .rsv _ => false
  | _ => true

/-- An MXPAIR of an odd half, whose source A is the even half's and whose field SA is unused, so that its kind is no reason of its own
(spec 11 R265, 06 R164). -/
def oddPair (x : Iss) : Bool := x.opc = 0xC1 && x.g.half

/-- Vector registers named at or beyond the group's register count (spec 02 R52, 10 R257). -/
def countWhy (x : Iss) : List Why :=
  (namedRegs x.opc x.sub x.e x.g.width).flatMap fun r => match r.1 with
    | .v k => why (x.g.vregs.length ≤ k && !(oddPair x && r.2.1 = 32)) 0x0F r.2.1
    | _ => []

/-- An accumulator tile that is not bound (spec 02 R54). -/
def tileWhy (x : Iss) (tile : Nat) (wide : Bool) (bit : Nat) : List Why :=
  why (x.g.accSlots < tile + (if wide then 3 else 1) || (wide && !(tile = 0 || tile = 3))) 0x10 bit

/-- The team of a group. -/
def State.teamOf (s : State) (g : Group) : Option Team := (s.teamIdx g.grid g.team).bind fun ti => s.teams[ti]?

/-- The resident group of a group's team with an index in it; the all-ones index names the group itself (spec 10 R251). None, too, for a
group that a reset of its core has taken away (19 R341). -/
def State.mate (s : State) (gi : Nat) (g : Group) (idx : W32) : Option Nat :=
  if idx = 0xFFFFFFFF then some gi
  else (s.groups.findIdx? fun h => h.live && h.grid = g.grid && h.team = g.team && h.idx = idx.toNat)

/-- Whether a branch form is taken, its guard aside (spec 08 R192, 01 R27). -/
def branchTaken (x : Iss) : Bool :=
  match x.opc with
  | 0x04 => x.word x.e.sa x.ul = 0
  | 0x05 => x.word x.e.sa x.ul != 0
  | 0x0B => (lanesOf x.g.exec x.g.width).all (x.pred x.e.sa) && x.g.exec != 0
  | _ => true

/-- Reasons in operand values and in the group's state, by form (spec 08 to 11). DESIGN CHOICE: where no field of the form is what
offends, as with a PFORM that does not fit it, ERET outside trap level, or MXPAIR outside a pair team, XVAL[15:8] is 0 (log 79). -/
def formWhy (x : Iss) (s : State) : List Why :=
  let a (lane : Nat) : Nat := (x.word x.e.sa lane).toNat
  let u := x.ul
  let b : Nat := (x.word x.e.sb u).toNat
  let c : Nat := (x.word x.e.sc u).toNat
  match x.opc with
  | 0x03 | 0x04 | 0x05 | 0x06 => if x.runs && branchTaken x then targetWhy (branchTarget x.g.pc x.e) else []
  | 0x0A => if x.g.exec = 0 then targetWhy (branchTarget x.g.pc x.e) else []
  | 0x0B =>
    let some := (lanesOf x.g.exec x.g.width).any (x.pred x.e.sa)
    if some then targetWhy (branchTarget x.g.pc x.e) else []
  | 0x07 | 0x08 | 0x09 => if x.runs then targetWhy (x.pair x.e.sa u) else []
  | 0x0E | 0x0F | 0x10 => why (15 < a u) 0x17 32
  | 0x12 => why (3 < a u) 0x16 0
  | 0x15 | 0x16 =>
    let n := x.e.csr
    let wide := ((csrKind n).map Prod.fst).getD false
    let v := if wide then x.pair x.e.sa u (n = 0x015) else (x.word x.e.sa u).setWidth 64
    why (!csrRO n && !csrOk n (csrNew x.opc x.sub (s.csr x.g n) v)) 0x16 0
  | 0x19 => if x.g.trap then targetWhy x.g.xrpc else [(0x17, 0)]
  | 0x88 | 0x89 => why (63 < a u) 0x17 32
  | 0x9E => tileWhy x (x.e.ctlF 127 125) true 125
  | 0xA0 | 0xA1 | 0xA2 | 0xA3 =>
    let form := pformOf x.g.pform
    if x.e.ext.lenCode = 2 then
      why (form != 0) 0x17 0
      ++ why (x.runs && x.readers.any fun i => x.elem x.e.sc x.e.ty 0 false i 0 % 2 = 0) 0x17 64
    else why (form = 0) 0x17 0 ++ why (form != 0 && (2 ^ tyBits x.e.ty : Nat) ≤ modulusOf x.g.pform) 0x17 0
  | 0xAC => why (x.e.wsc && a u != 0) 0x17 32
  | 0xB0 | 0xC5 => why (c % 4 != 0) 0x17 64
  | 0xB3 =>
    let n := x.e.ctlF 115 108 + 1
    let g := x.word x.e.sb u
    if g != 0xFFFFFFFF && x.g.nGroups ≤ g.toNat then [(0x17, 42)]
    else match s.mate x.gi x.g g with
    | none => []
    | some h => why (((s.groups[h]?).map fun g => g.vregs.length).getD 0 < x.e.ctlF 127 120 + n) 0x0F 120
  | 0xB4 | 0xB5 => why (((s.teamOf x.g).map fun t => t.queues.length).getD 0 ≤ a u) 0x17 32
  | 0xB8 => why (b = 0 || x.g.vregs.length < 8 * b + 8) 0x17 42
  | 0xB9 => why (a u = 0 || 256 < x.g.vregs.length + 8 * a u) 0x17 32
  | 0xC0 => tileWhy x (x.e.ctlF 98 96) (2 ≤ x.e.ctlF 111 109 && x.e.ctlF 111 109 ≤ 4) 96
  | 0xC1 =>
    tileWhy x (x.e.ctlF 98 96) (2 ≤ x.e.ctlF 111 109 && x.e.ctlF 111 109 ≤ 4) 96
    ++ why (!((s.teamOf x.g).map Team.pair).getD false) 0x17 0
    ++ why (x.g.half && x.e.sa.toCode != 0) 0x17 32 ++ why (x.g.half && x.e.ctlF 94 94 = 1) 0x17 94
  | 0xC4 => match x.e.dst with
    | .a t => tileWhy x t (a u = 1) 23
    | _ => []
  | 0xC6 => tileWhy x (x.e.ctlF 124 122) true 122
  | 0xC7 | 0xC8 => why (pformOf x.g.pform = 0) 0x17 0
  | _ => []

/-- Every ILLEGAL reason that applies to an instruction at its issue (spec 06 R176). -/
def issueWhy (x : Iss) (s : State) : List Why :=
  let sp := spec x.opc x.sub x.e
  pcWhy x.g.pc x.e.ext.bytes ++ ((encWhy x.opc x.sub x.e).filter fun c => !(oddPair x && srcKinded x.e.sa && c = (0x0B, 32))) ++ countWhy x
  ++ latchWhy x sp.sa x.e.sa 32 ++ latchWhy x sp.sb x.e.sb 42 ++ latchWhy x sp.sc x.e.sc 64 ++ latchWhy x sp.sd x.e.sd 118
  ++ chainWhy x ++ formWhy x s

/-- The registers of a group that copies into them guard (spec 10 R251): a group of its team has issued them. Those that wait for a page hold
back nothing of a group that stops: they are issued again (19 R338). -/
def State.guarded (s : State) (gi : Nat) (g : Group) : List Res :=
  s.groups.flatMap fun h =>
    if h.live && h.grid = g.grid && h.team = g.team then
      h.ops.flatMap fun o => match o.body with
        | .regIn _ _ t k n => if t = gi && o.phase != .done && !(g.stopped && o.phase = .paused) then (List.range n).map fun j => Res.v (k + j)
          else []
        | _ => []
    else []

/-- Whether a group may read or write some registers now: an instruction that has issued, and reads or writes them only later, waits as
well until a copy into them has landed (spec 10 R251). -/
def State.unguarded (s : State) (gi : Nat) (rs : List Res) : Bool :=
  match s.groups[gi]? with
  | none => true
  | some g => rs.isEmpty || !(s.guarded gi g).any rs.contains

/-- Registers that outstanding operations hold against reads and writes, and those they hold against writes only: a group's
own operations, and copies into its registers that groups of its team issued (spec 10 R241, R251, 11 R258, R260). -/
def State.heldRegs (s : State) (gi : Nat) (g : Group) : List Res × List Res :=
  let mine := g.ops.filter fun o => o.phase != .done
  ((mine.flatMap Op.hold) ++ s.guarded gi g, mine.flatMap Op.holdW)

/-- Whether registers that an instruction reads or writes are held. -/
def blocked (held : List Res × List Res) (reads writes : List Res) : Bool :=
  reads.any (fun r => held.1.contains r) || writes.any fun r => held.1.contains r || held.2.contains r

/-- Whether a core's cluster holds a power token (spec 11 R264). -/
def State.hasToken (s : State) (core : Nat) : Bool :=
  ((s.dies[dieOf core]?).bind fun d => (d.clusters[core % 36 / 4]?).map Cluster.token).getD false

/-- Whether the counters that a WAITC names stand at most at a threshold (spec 10 R245, 04 R128). -/
def waitcDone (g : Group) (cls n : Nat) : Bool :=
  let all : List Cls := [.ld, .st, .xc, .mx, .nt, .ln, .hp, .sk, .cq]
  (if cls = 9 then all else (all[cls]?).toList).all fun c => g.cnt c ≤ n

/-- Whether a group of a grid has a task in flight, pre-empted groups included (spec 05 R145, R152). -/
def State.taskInFlight (s : State) (id : W32) : Bool :=
  (s.groups.any fun g => g.live && g.grid = id && g.task && !g.gone)
  || ((s.grid? id).map fun g => g.pre.any fun p => p.tasks.any (· = true)).getD false

/-- Whether the write-out of a grid's heap is due, so that its Cue operations are held (spec 05 R148). -/
def State.writeOutDue (s : State) (id : W32) : Bool :=
  s.cue.owner = some id && ((s.grid? id).any fun g => g.cuestate = 1 && !g.fatal) && !s.taskInFlight id

/-- Registers that a form uses and no field of it names: those that RGIVE gives up, an XREG's in its own group, those that an inline
call enters the routine with, and for the RET that ends one those of its CUEPUSH, for which every register is taken (spec 10 R251,
R256, 12 R299; log 64). -/
def extraBlocked (x : Iss) (s : State) (held : List Res × List Res) : Bool :=
  match x.opc with
  | 0x08 => !x.g.inline.isEmpty && !(held.1.isEmpty && held.2.isEmpty)
  | 0xB3 =>
    let rs := (List.range (x.e.ctlF 115 108 + 1)).map fun j => Res.v (x.e.ctlF 127 120 + j)
    s.mate x.gi x.g (x.word x.e.sb x.ul) = some x.gi && blocked held rs (if x.e.ctlF 119 119 = 1 then [] else rs)
  | 0xB8 => blocked held [] ((List.range (8 * (x.word x.e.sb x.ul).toNat)).map fun j => Res.v (x.g.vregs.length - 1 - j))
  | 0xD0 => blocked held [] ([.s 112, .s 113] ++ (List.range 8).map Res.v)
  | _ => false

/-- Why a legal instruction that has an effect cannot issue yet, by form: a reason of R382, or 0. -/
def formStall (x : Iss) (s : State) (held : List Res × List Res) : Nat :=
  let full : Bool := match (attr x.opc).bind Attr.cnt with
    | some c => decide (255 ≤ x.g.cnt c)
    | none => false
  let a := (x.word x.e.sa x.ul).toNat
  if extraBlocked x s held then 2
  else if full then 3
  else if x.opc = 0xAC && !waitcDone x.g x.e.wcls a then 4
  else if (x.opc = 0xC0 || x.opc = 0xC1) && !s.hasToken x.g.core then 9
  else if [0xC0, 0xC2, 0xC3, 0xC4].contains x.opc && 8 ≤ ((s.cores[x.g.core]?).map fun c => c.mxq.length).getD 0 then 10
  else if 0xD0 ≤ x.opc && x.opc ≤ 0xD4 && s.writeOutDue x.g.grid then 15
  else 0

/-- Whether a spill word of an earlier form of the group is still to be written, which goes before its next instruction (spec 09 R229). -/
def Group.spilling (g : Group) : Bool :=
  g.ops.any fun o => o.lands.any fun l => match l with
    | .spill _ _ => true
    | _ => false

/-- Whether what every instruction needs is still to land: exec, on which it acts, and spill words (spec 08 R386, 09 R229). -/
def landsFirst (g : Group) (held : List Res × List Res) : Bool :=
  held.1.contains (.s 126) || held.1.contains (.s 127) || g.spilling

/-- Why an instruction cannot issue in this cycle (spec 01 R43, 21 R382): held registers first, then its form's conditions when
it is legal and has an effect. 0: it issues. A branch that uses what a load returns waits for it as every form does, so that later loads
come after that load (log 10). -/
def stallWhy (x : Iss) (s : State) : Nat :=
  let held := s.heldRegs x.gi x.g
  if landsFirst x.g held then 2
  else if blocked held ((readRegs x.opc x.sub x.e x.g.width).filter fun r => !(oddPair x && (match r with | .v _ => true | _ => false))) (writtenRegs x.opc x.sub x.e x.g.width) then 2
  else if (firstWhy (issueWhy x s)).isSome || !x.runs then 0
  else formStall x s held

/-- Whether a form that is not uniform reads a source field once, at the lane of R17: the mask of MTOP, the amount of VBCAST and
VROTL, the offset of LDB and STB (spec 08 R188, 09 R223, 10 R242; log 24). -/
def readOnce (opc field : Nat) : Bool :=
  match opc with
  | 0x46 => field = 0
  | 0x84 | 0x87 | 0xA7 | 0xA8 => field = 1
  | _ => false

/-- The source lanes of VSHUF (spec 09 R223). -/
def shufLane (sub : Nat) (x : Iss) (i : Nat) : Nat :=
  let w := x.g.width
  let b := (x.word x.e.sb i).toNat
  match sub with
  | 0 => b % w
  | 1 => i ^^^ (b % w)
  | 2 => if b ≤ i then i - b else i
  | _ => if i + b < w then i + b else i

/-- The amount of VBCAST and VROTL: a vector register is read at the lane of R17 (spec 09 R223). -/
def Iss.uniform (x : Iss) : Nat := (x.word x.e.sb x.ul).toNat

/-- The source lane of VROTL (spec 09 R223). -/
def rotlLane (x : Iss) (i : Nat) : Nat := (((i : Int) - x.uniform) % (x.g.width : Int)).toNat

/-- The lanes of a register that a source field reads: those of the operands, one where it is read once, and of a lane move's SA the
source lanes (spec 02 R59, 09 R223). -/
def Iss.lanesRead (x : Iss) (field : Nat) : List Nat :=
  if readOnce x.opc field then [x.ul]
  else if field != 0 then x.readers
  else match x.opc with
    | 0x83 => x.readers.map (shufLane x.sub x)
    | 0x84 => [x.uniform % x.g.width]
    | 0x87 => x.readers.map (rotlLane x)
    | _ => x.readers

/-- The first marked register that a source field reads in some of its lanes (spec 02 R59). -/
def markedIn (x : Iss) (lanes : List Nat) (o : Opnd) (a : Src) (pair : Bool) : Option Nat :=
  match o, a with
  | .val _ w _, .v k =>
    ((List.range (w.count pair)).map fun j => k.val + j).find? fun r => lanes.any fun i => x.g.marked r i
  | _, _ => none

/-- The fields whose markers move or are stored, or that the form checks itself (spec 02 R59): a move without a vector
destination carries none. -/
def markFree (x : Iss) (field : Nat) : Bool :=
  let move := match x.e.dst with
    | .v _ => true
    | _ => false
  match x.opc with
  | 0x50 => field = 0 && move
  | 0xC0 | 0xC1 => field = 0
  | 0x69 => true
  | 0x83 | 0x84 | 0x87 => field = 0 && move
  | 0x88 => field = 1
  | 0x90 | 0x91 | 0x92 | 0x93 | 0x94 | 0x95 | 0x96 | 0x97 | 0x98 | 0x99 | 0x9A | 0x9B | 0x9C => true
  | 0xD6 => field = 0
  | _ => false

/-- The register whose marker makes an instruction trap UNINIT, through a source field (spec 02 R59). Where several registers that
it reads are marked, XVAL names that of the first field in the order SA, SB, SC, SD, and in it the lowest: the specification does not
say which (log 62). -/
def uninit (x : Iss) : Option Nat :=
  let sp := spec x.opc x.sub x.e
  let pair := tyPair x.opc x.e
  let f (field : Nat) (o : Opnd) (a : Src) (p : Bool) : Option Nat :=
    if markFree x field then none else markedIn x (x.lanesRead field) o a p
  (f 0 sp.sa x.e.sa (saPair x.opc x.e)).or ((f 1 sp.sb x.e.sb pair).or ((f 2 sp.sc x.e.sc pair).or (f 3 sp.sd x.e.sd pair)))

end Sys2Proof.Machine
end

