-- ==== Sys2Proof/Machine/Ops.lean ====
section
/-! DEFINITION. The shared operations of the instruction forms: taking a trap and returning from one (spec 19 R329, 11 R285),
holding a group for the driver (19 R335, 11 R284), outstanding operations and their completion (02 R57, 10 R249), memory
accesses of lanes (04 R98, R118, R122, 10 R239), and the issue of an instruction (01 R17, R21, 02 R60 to R64, 06 R175 to
R177). -/

namespace Sys2Proof.Machine

/-- A group in its place, changed. -/
def State.modGroup (s : State) (gi : Nat) (f : Group → Group) : State := { s with groups := s.groups.modify gi f }

/-- The resident team of a group, changed. -/
def State.modTeam (s : State) (g : Group) (f : Team → Team) : State :=
  match s.teamIdx g.grid g.team with
  | none => s
  | some ti => { s with teams := s.teams.modify ti f }

/-- The trap code of SVC (spec 19 R327). -/
def svcCode : Nat := 0x0A

/-- The fault recorded for the driver, and the group held until it answers (spec 19 R335, R336). ch: CH of its instruction, false
where that is still to be fetched; kind: R335's KIND. -/
def State.holdGroup (s : State) (gi : Nat) (ch : Bool) (kind : Nat) (va : W64) (level : Nat) : State :=
  match s.groups[gi]? with
  | none => s
  | some g =>
    { s.setGroup gi { g with wait := .held (kind = 6) } with
        frRecs := s.frRecs ++ [{ seq := none, g := gi, op := none, kind := kind, va := va, level := level, ctx := g.ctx,
                                 ch := ch }] }

/-- The registers of a trap entry (spec 19 R329, R327, 02 R66). ch: the instruction continues a chain, so that a first member
too stands in one (log 22). ret: for a form that completes and closes its chain, the address after it (11 R284). -/
def Group.enterTrap (g : Group) (ch : Bool) (code reason : Nat) (xval : W64) (ret : Option W64) : Group :=
  let inch := ret.isNone && (ch || g.chain.isSome)
  { g with xcause := BitVec.ofNat 32 (code % 2 ^ 8 + reason % 2 ^ 8 * 2 ^ 8), xval := xval, xpc := g.pc,
           xrpc := match ret with
             | some r => r
             | none => (g.chain.map Chain.first).getD g.pc,
           trap := true, inchain := inch, chpos := if inch then BitVec.ofNat 3 ((g.chain.map Chain.pos).getD 0) else 0,
           chfirst := (g.chain.map Chain.first).getD g.pc,
           pc := g.xbase, chain := none }

/-- A synchronous trap taken by a group at its current instruction (spec 19 R329): nested, it is fatal to the context; without
a handler an SVC holds the group for service and any other trap is fatal to the context; else the group enters its handler.
The entry is recorded (21 R363) and counted (19 R343, event 13). -/
def State.takeTrap (s : State) (gi : Nat) (ch : Bool) (code reason : Nat) (xval : W64) (ret : Option W64) : State :=
  match s.groups[gi]? with
  | none => s
  | some g =>
    let noted := (s.reel g.core 0x08 (some g.ctx) (g.gslot + pcField g.pc) (some (code, reason, xval))).countEv gi 13 1
    if g.trap then noted.contextFatal g.ctx g.core g.gslot 0x80
    else if g.xbase = 0 then
      if code = svcCode then s.holdGroup gi ch 6 xval 0
      else noted.contextFatal g.ctx g.core g.gslot code
    else noted.modGroup gi fun h => { h.enterTrap ch code reason xval ret with since := s.cycle }

/-- The return from a trap: trap level ends and the group goes on at XRPC; exec stays (spec 11 R285). -/
def Group.leaveTrap (g : Group) : Group := { g with trap := false, pc := g.xrpc, chain := none }

/-- The wait of a group ends and its instruction of n bytes has completed (spec 01 R44). -/
def Group.resume (g : Group) (n cycle : Nat) : Group :=
  { g with pc := nextPc g.pc n, chain := none, wait := .ready, since := cycle }

/-- The operation of an instruction at issue (spec 02 R57). -/
def Group.addOp (g : Group) (o : Op) : Group := { g with ops := g.ops ++ [{ o with id := g.opSeq }], opSeq := g.opSeq + 1 }

/-- An operation of an instruction at its issue; its number is given when it is added. -/
def Iss.op (x : Iss) (cls : Option Cls) (body : OpBody) (lands : List Land := []) (hold : List Res := [])
    (holdW : List Res := []) (phase : OpPhase := .queued) : Op :=
  { id := 0, cls := cls, pc := x.g.pc, word := x.e.ext.bits ++ headBits x.opc x.sub x.e, phase := phase, lands := lands,
    hold := hold, holdW := holdW, body := body, fault := none }

/-- Operation id of a group. -/
def Group.op? (g : Group) (id : Nat) : Option Op := g.ops.find? fun o => o.id = id

/-- Operation id of a group, changed. -/
def Group.modOp (g : Group) (id : Nat) (f : Op → Op) : Group :=
  { g with ops := g.ops.map fun o => if o.id = id then f o else o }

/-- A register write that an operation makes at its completion; marker states are cleared (spec 02 R55, R58). -/
def Group.land (g : Group) (l : Land) : Group :=
  match l with
  | .v k lanes vals tag => g.setV k lanes vals 0 tag.toNat
  | .s k val => g.setS k val
  | .spill _ _ => g

/-- Where spill word k of a group lies (spec 02 R56); none without a team. -/
def State.spillPlace (s : State) (g : Group) (k : Nat) : Option Place :=
  (s.teamIdx g.grid g.team).map fun ti => .stage ti g.half 0 (g.spwBase.toNat * 1024 + 4 * k)

/-- A spill word as it stands. -/
def State.spillWord (s : State) (g : Group) (k : Nat) : W32 :=
  match s.spillPlace g k with
  | some p => BitVec.ofNat 32 (leNat (s.readAt p 4))
  | none => 0

/-- A spill word written. -/
def State.setSpill (s : State) (g : Group) (k : Nat) (w : W32) : State :=
  match s.spillPlace g k with
  | some p => s.writeAt p (leBytes 4 w.toNat)
  | none => s

/-- A landing in the spill window. -/
def State.landSpill (s : State) (g : Group) (l : Land) : State :=
  match l with
  | .spill k w => s.setSpill g k w
  | _ => s

/-- Operations that leave the counters: complete, and none of their class before them that is not (spec 02 R57). The first
list holds those that stay. -/
def retiring : List Op → List Op × List Op
  | ops => ops.foldl (fun acc o =>
      if o.phase = .done && (o.cls.isNone || !acc.1.any fun p => p.cls = o.cls) then (acc.1, acc.2 ++ [o])
      else (acc.1 ++ [o], acc.2)) ([], [])

/-- Counters lowered in issue order; a fault of an operation is due once its counter shows it complete (10 R249 item 6), and a
sleeping group wakes (08 R198). -/
def Group.retire (g : Group) (cycle : Nat) : Group :=
  let r := retiring g.ops
  let g1 := { g with ops := r.1, due := g.due ++ r.2.filterMap Op.fault }
  match g.wait with
  | .sleep _ => if r.2.any fun o => o.cls.isSome then g1.wake cycle else g1
  | _ => g1

/-- An operation of a group complete: it lands, the counters fall, and a team whose groups are all gone may exit (spec 02 R57,
01 R38). -/
def State.finishOp (s : State) (gi id : Nat) (lands : List Land) (fault : Option Due) : State :=
  match s.groups[gi]? with
  | none => s
  | some g =>
    let g1 := (lands.foldl Group.land g).modOp id fun o =>
      { o with phase := .done, lands := [], fault := fault.map fun d => { d with word := o.word } }
    let s1 := (lands.foldl (fun s l => s.landSpill g l) s).setGroup gi (g1.retire s.cycle)
    if g.gone then s1.teamExit g.grid g.team else s1

/-- What an instruction does. -/
inductive Eff where
  /-- it completes, delivering a value to the latches -/
  | done (s : State) (out : LatchVal)
  /-- it has set the group's PC itself, which ends a chain -/
  | jump (s : State)
  /-- the group waits at the instruction -/
  | stay (s : State)
  /-- it traps with a code, a reason and XVAL; the state holds what the attempt left outside the group -/
  | trap (s : State) (code reason : Nat) (xval : W64)
  /-- an access found no translation: kind, address, level (spec 19 R335) -/
  | hold (s : State) (kind : Nat) (va : W64) (level : Nat)
  /-- it does not issue in this cycle, for a reason of R382, by the budgets of traffic classes on dies, and tries again -/
  | again (s : State) (reason : Nat) (budgets : List (Nat × Nat))

/-- A fault of an access of a group turned into its effect (spec 19 R328, R335, 20 R357). k: the kind of access. -/
def Flt.eff (f : Flt) (s : State) (g : Group) (k : AccK) : Eff :=
  match f with
  | .mem kind a => .trap (s.reelPoison g false f) 0x04 kind a
  | .noKey a => .trap s 0x04 0x05 a
  | .absent va level => .hold s k.code va level
  | .wait reason budgets => .again s reason budgets

/-- The group after an instruction that completes at the next address: its chain is longer, or ended (spec 02 R60, R61). -/
def Group.advance (g : Group) (x : Iss) (out : LatchVal) (cycle : Nat) : Group :=
  { g with pc := nextPc x.g.pc x.e.ext.bytes, since := cycle,
           chain := if x.e.ch then
               some { pos := x.pos + 1,
                      first := (x.g.chain.map Chain.first).getD x.g.pc,
                      hist := (out :: (x.g.chain.map Chain.hist).getD []).take 4,
                      reads := readRegs x.opc x.sub x.e x.g.width ++ (x.g.chain.map Chain.reads).getD [] }
             else none }

/-- The state that an effect leaves. -/
def Eff.apply (r : Eff) (x : Iss) : State :=
  match r with
  | .done s out => s.modGroup x.gi fun g => g.advance x out s.cycle
  | .jump s => s.modGroup x.gi fun g => { g with chain := none, since := s.cycle }
  | .stay s => s
  | .trap s code reason xval => s.takeTrap x.gi x.e.ch code reason xval none
  | .hold s kind va level => s.holdGroup x.gi x.e.ch kind va level
  | .again s reason budgets => s.modGroup x.gi fun g => { g with wait := .again reason s.cycle budgets }

/-- The PMC that a CSR form writes, with its count before (spec 19 R344). -/
def Iss.pmcWritten (x : Iss) : Option (Nat × BitVec 48) :=
  if (x.opc = 0x15 || x.opc = 0x16) && 0x100 ≤ x.e.csr && x.e.csr ≤ 0x107 && x.runs then
    some (x.e.csr - 0x100, (x.g.pmc[x.e.csr - 0x100]?).getD 0) else none

/-- An issued instruction counted (spec 19 R343, event 2). g: the group before it. -/
def State.countIssue (s : State) (gi : Nat) (g : Group) : State := s.modGroup gi fun h => h.count (g.counting 2) 2 1

/-- A group's issue noted in what its quadrant has issued: the issues of the last four cycles stay known (spec 01 R16, R44). -/
def Issued.after (i : Option Issued) (gi : Nat) (pc : W64) (cycle : Nat) (two : Bool) (pmc : Option (Nat × BitVec 48)) : Issued :=
  { g := gi, pc := pc, at_ := cycle, two := two, pmc := pmc,
    late := (gi, cycle) :: ((i.map Issued.late).getD []).filter fun l => cycle < l.2 + 4 }

/-- What a quadrant has issued (spec 01 R16): two cycles are taken by a vector instruction of a 64-lane group. g: the group before
it. -/
def State.noteIssued (s : State) (gi : Nat) (g : Group) (two : Bool) (pmc : Option (Nat × BitVec 48)) : State :=
  { s with cores := s.cores.modify g.core fun c =>
      { c with issued := c.issued.modify g.quad fun i => some (Issued.after i gi g.pc s.cycle two pmc) } }

/-- An issued instruction noted and counted. -/
def State.issuedBy (s : State) (x : Iss) (pmc : Option (Nat × BitVec 48)) : State :=
  (s.countIssue x.gi x.g).noteIssued x.gi x.g (x.g.width = 64 && !x.e.u) pmc

/-- The latch value of an instruction that has no effect: its destination as it stands (spec 02 R61). -/
def Iss.idleOut (x : Iss) : LatchVal :=
  x.idle (match (spec x.opc x.sub x.e).dst with
    | .reg _ _ _ _ _ => true
    | _ => false)

/-- The effect of an instruction that issues: an illegal one traps whatever its guard; without a lane that qualifies it only
advances, and where it is CUEPOP ends the group's task (05 R145); a marker in a source traps; else it has its form's effect (spec 06
R175 to R177, 01 R17, R21, 02 R59). -/
def issued (x : Iss) (s : State) (f : Iss → State → Eff) : Eff :=
  match firstWhy (issueWhy x s) with
  | some c => .trap s 0x01 c.1 (BitVec.ofNat 64 (c.1 + 256 * c.2))
  | none =>
    if !x.runs then .done (if x.opc = 0xD1 then s.modGroup x.gi fun g => { g with task := false } else s) x.idleOut
    else
      match uninit x with
      | some r => .trap s 0x02 0 (BitVec.ofNat 64 r)
      | none => f x s

/-- The fault of an engine operation, taken at the group's next instruction (spec 10 R249 item 6, 19 R328). -/
def State.deliverDue (s : State) (gi : Nat) (ch : Bool) (d : Due) : State :=
  (s.modGroup gi fun g => { g with due := g.due.drop 1 }).takeTrap gi ch 0x04 (d.kind + 0x80) d.addr none

/-- The issue of an instruction form by the group that the state names. -/
def issue (opc sub : Nat) (e : Enc) (s : State) (f : Iss → State → Eff) : Host.Outcome State Fault Refusal :=
  match s.groups[s.cur]? with
  | none => .fault .noGroup
  | some g =>
    let x : Iss := { gi := s.cur, g := g, opc := opc, sub := sub, e := e }
    if stallWhy x s != 0 then .next s
    else
      match g.due with
      | d :: _ => .next ((s.deliverDue s.cur e.ch d).issuedBy x none)
      | [] =>
        match issued x s f with
        | .trap s' code reason xval => .next (((Eff.trap s' code reason xval).apply x).issuedBy x none)
        | .again s' reason budgets => .next ((Eff.again s' reason budgets).apply x)
        | r => .next ((r.apply x).issuedBy x x.pmcWritten)

/-- A form whose only effect is on its group: the group and the latch value. -/
def pure1 (f : Iss → State → Group × LatchVal) (x : Iss) (s : State) : Eff :=
  let r := f x s
  .done (s.setGroup x.gi r.1) r.2

/-- A new free value drawn: the counter it is drawn with, which then advances (log 3). -/
def State.draw (s : State) : Nat × State := (s.freeCount, { s with freeCount := s.freeCount + 1 })

/-- The addresses of the lanes that access memory, in lane order (spec 10 R239). -/
def Iss.addrs (x : Iss) : List (Nat × W64) :=
  x.readers.map fun i =>
    let off := x.word x.e.sb i
    (i, if x.e.space = 0 then x.pair x.e.sa i + off.signExtend 64 else (x.word x.e.sa i + off).setWidth 64)

/-- The space that a class M form names (spec 06 R168). -/
def spaceOf (code : Nat) : Space :=
  match code with
  | 0 => .g
  | 1 => .s
  | 2 => .k
  | _ => .b

/-- The first misaligned address in lane order (spec 04 R98). -/
def misaligned (as : List (Nat × W64)) (n : Nat) : Option W64 := (as.find? fun a => a.2.toNat % n != 0).map Prod.snd

/-- Where the addresses of the lanes lie, or the fault of the first that faults in lane order (spec 04 R98). -/
def State.resolveAll (s : State) (gi : Nat) (g : Group) (k : AccK) (sp : Space) (n : Nat) :
    List (Nat × W64) → State × Except Flt (List (Nat × Place))
  | [] => (s, .ok [])
  | a :: as =>
    let r := s.resolve gi g false k sp a.2 n
    match r.2 with
    | .error f => (r.1, .error f)
    | .ok p =>
      let q := State.resolveAll r.1 gi g k sp n as
      (q.1, match q.2 with
        | .error f => .error f
        | .ok ps => .ok ((a.1, p) :: ps))

/-- The device bytes among places of n bytes. -/
def devPlaces (ps : List Place) (n : Nat) : List (Nat × Nat) := ps.filterMap fun p => p.devBytes n

/-- Requests of a group made at the home slices of some places: they are charged to the demand class, or wait while it is held there
(spec 18 R325, R326). -/
def State.demand (s : State) (rs : List (Nat × Nat)) (f : State → Eff) : Eff :=
  if s.held 0 rs then .again s 17 (rs.map fun r => (0, homeDie r.1)) else f (s.charge 0 rs)

/-- The lines that the first-level data cache of a core holds without extension banks (spec 00 R4: 768 KiB of 128-byte lines), and
those that an extension bank of 32 KiB adds (04 R104). -/
def l1Lines : Nat := 6144
@[inherit_doc l1Lines]
def bankLines : Nat := 256

/-- The banks that extend a core's L1 (spec 04 R104, 18 R322). -/
def Core.l1Banks (c : Core) : List Nat := (List.range 32).filter fun b => roleOf c.bankact b = 1

/-- A line brought into a core's L1: into the cache itself, or an extension bank that has room; where none has, the oldest line leaves
and its place is taken (spec 04 R104, 10 R246). -/
def Core.bring (c : Core) (host : Bool) (line : Nat) : Core :=
  let held (b : Option Nat) : Nat := (c.l1.filter fun l => l.bank = b).length
  let put (b : Option Nat) (rest : List L1Line) : Core := { c with l1 := rest ++ [{ host := host, line := line, bank := b }] }
  if held none < l1Lines then put none c.l1
  else
    match c.l1Banks.find? fun b => held (some b) < bankLines with
    | some b => put (some b) c.l1
    | none => match c.l1 with
      | [] => c
      | l :: rest => put l.bank rest

/-- A line of device or host memory brought into a core's L1; a line that was not there is counted (spec 10 R246, 19 R343 event 6). -/
def State.touchL1 (s : State) (gi core : Nat) (host : Bool) (pa : Nat) : State :=
  let line := pa / 128
  if ((s.cores[core]?).map fun c => c.l1.any fun l => l.host = host && l.line = line).getD true then s
  else ({ s with cores := s.cores.modify core fun c => c.bring host line } : State).countEv gi 6 1

/-- A load of one place through L1. -/
def State.touchPlace (s : State) (gi core : Nat) (p : Place) : State :=
  match p with
  | .dev pa _ => s.touchL1 gi core false pa
  | .host pa => s.touchL1 gi core true pa
  | _ => s

/-- The value of n bytes at a place (spec 00 R9). -/
def State.loadAt (s : State) (p : Place) (n : Nat) : Nat := leNat (s.readAt p n)

/-- n bytes of a value stored at a place. -/
def State.storeAt (s : State) (p : Place) (n v : Nat) : State := s.writeAt p (leBytes n v)

/-- The places that one instruction wrote whole lines of lose their poison (spec 04 R118). -/
def State.clearAfter (s : State) (ps : List (Nat × Place)) (n : Nat) : State :=
  s.clearPoison (ps.filterMap fun p => p.2.devBytes n)

/-- A group's operation added, with its class counted (spec 02 R57, 19 R343 events 4 and 5). -/
def State.addOp (s : State) (gi : Nat) (o : Op) : State :=
  let s1 := s.modGroup gi fun g => g.addOp o
  match o.cls with
  | some .ld => s1.countEv gi 4 1
  | some .st => s1.countEv gi 5 1
  | _ => s1

/-- The registers of a vector destination, one or a pair. -/
def vRegs (k n : Nat) : List Res := (List.range n).map fun j => .v (k + j)

/-- The registers of a scalar destination, one or a pair. -/
def sRegs (k n : Nat) : List Res := (List.range n).map fun j => .s (k + j)

/-- The register writes that bring the words of a result into the destination later: word j of a lane into register j of it
(spec 01 R17, 06 R162). -/
def Iss.landing (x : Iss) (n : Nat) (word : Nat → Nat → W32) : List Land × List Res :=
  if x.e.nw then ([], [])
  else
    match x.e.dst with
    | .v k =>
      let at_ (i : Nat) : Nat := if x.e.u then x.ul else i
      if x.writers = 0 then ([], [])
      else
        ((List.range n).map fun j => .v (k + j) x.writers ((List.range x.g.width).map fun i => word (at_ i) j)
           (BitVec.ofNat 8 x.g.width), vRegs k n)
    | .s k => ((List.range n).map fun j => .s (k + j) (word x.ul j), sRegs k n)
    | _ => ([], [])

end Sys2Proof.Machine
end

