-- ==== Sys2Proof/Machine/IntForms.lean ====
section
/-! DEFINITION. Integer arithmetic: the scalar forms and the element-wise vector forms (spec 08 R203 to R205, 09 R209 to R217),
over one definition of each operation on values. -/

namespace Sys2Proof.Machine

/-- A quotient truncated toward zero (spec 08 R203). -/
def truncDiv (a b : Int) : Int := a.tdiv b

/-- SDIV's value: all ones for a divisor of 0 (spec 08 R203). -/
def divValue (ty : Nat) (a b : Int) : Int := if b = 0 then (if tySigned ty then -1 else (intRange ty).2) else truncDiv a b

/-- SREM's value: the dividend for a divisor of 0 (spec 08 R203). -/
def remValue (_ty : Nat) (a b : Int) : Int := if b = 0 then a else a - b * truncDiv a b

/-- The position of a field descriptor (spec 08 R204). -/
def fieldPos (f : W32) : Nat := (f.extractLsb' 0 6).toNat

/-- Its length. -/
def fieldLen (f : W32) : Nat := min (f.extractLsb' 8 7).toNat 64

/-- Field extract from an n-bit pattern (spec 08 R204). -/
def fieldExtract (ty n : Nat) (a : Nat) (f : W32) : Nat :=
  let len := fieldLen f
  let y : Nat := a % 2 ^ n / 2 ^ fieldPos f % 2 ^ len
  wrapN (if tySigned ty then sextN y len else y) n

/-- Field insert of b into a (spec 08 R204). -/
def fieldInsert (n : Nat) (a b : Nat) (f : W32) : Nat :=
  let m := ((2 ^ fieldLen f - 1) * 2 ^ fieldPos f) % 2 ^ n
  let keep : Nat := (2 ^ n - 1) ^^^ m
  (a &&& keep) ||| (b * 2 ^ fieldPos f % 2 ^ n &&& m)

/-- Number of 1 bits of a pattern. -/
def popc (n p : Nat) : Nat := ((List.range n).filter fun i => p.testBit i).length

/-- Leading zero bits of an n-bit pattern. -/
def leadZeros (n p : Nat) : Nat := n - bitLen (p % 2 ^ n)

/-- The shift count of a pattern: its low 32 bits modulo the width (spec 08 R203, 09 R214). -/
def shiftOf (n b : Nat) : Nat := b % 2 ^ 32 % n

/-- An operation on two patterns of a type: type, SAT, a, b. -/
abbrev Bin := Nat → Bool → Nat → Nat → Nat

/-- An operation on the values of the patterns, with the result step (spec 08 R203, 09 R214). -/
def onValues (f : Nat → Int → Int → Int) : Bin := fun ty sat a b => intResult ty sat (f ty (intVal ty a) (intVal ty b))

def addBin : Bin := onValues fun _ a b => a + b
def subBin : Bin := onValues fun _ a b => a - b
def mulBin : Bin := onValues fun _ a b => a * b
def mulhBin : Bin := onValues fun ty a b => a * b / (2 ^ tyBits ty : Nat)
def divBin : Bin := onValues divValue
def remBin : Bin := onValues remValue
def minBin : Bin := onValues fun _ a b => min a b
def maxBin : Bin := onValues fun _ a b => max a b
def absdBin : Bin := onValues fun _ a b => (a - b).natAbs
def andBin : Bin := fun _ _ a b => a &&& b
def orBin : Bin := fun _ _ a b => a ||| b
def xorBin : Bin := fun _ _ a b => a ^^^ b
def movBin : Bin := fun _ _ a _ => a
def notBin : Bin := fun ty _ a _ => (2 ^ tyBits ty - 1) ^^^ a
def shlBin : Bin := fun ty _ a b => a * 2 ^ shiftOf (tyBits ty) b % 2 ^ tyBits ty
def shrBin : Bin := fun ty _ a b => a / 2 ^ shiftOf (tyBits ty) b
def sarBin : Bin := fun ty _ a b => wrapN (sextN a (tyBits ty) / (2 ^ shiftOf (tyBits ty) b : Nat)) (tyBits ty)
def rotBin : Bin := fun ty _ a b =>
  let n := tyBits ty
  let k := shiftOf n b
  (a * 2 ^ k + a / 2 ^ (n - k)) % 2 ^ n
def popcBin : Bin := fun ty _ a _ => popc (tyBits ty) a
def clzBin : Bin := fun ty _ a _ => leadZeros (tyBits ty) a

/-- Whether a form's type has 64 bits. -/
def Iss.wide (x : Iss) : Bool := ty64 x.e.ty

/-- The pattern of a scalar operand on the lane of R17 (spec 08 R203). -/
def Iss.scal (x : Iss) (a : Src) : Nat := x.elem a x.e.ty 0 false x.ul 0

/-- The result pattern of a scalar form (spec 08 R203). -/
def scalarVal (x : Iss) (f : Bin) : W64 := BitVec.ofNat 64 (f x.e.ty x.e.sat (x.scal x.e.sa) (x.scal x.e.sb))

/-- A scalar form (spec 08 R203). -/
def scalarEff (f : Bin) : Iss → State → Eff := pure1 fun x _ => x.deliver x.wide fun _ => scalarVal x f

/-- A multi-cycle form: its result lands when it completes, and its registers are held until then (spec 08 R386, 09 R213). -/
def multiCycle (x : Iss) (s : State) (n : Nat) (word : Nat → Nat → W32) : Eff :=
  let l := x.landing n word
  .done (s.addOp x.gi (x.op none .plain l.1 l.2)) .none

/-- Word j of a 64-bit value. -/
def wordOf (v : W64) (j : Nat) : W32 := (v >>> (32 * j)).setWidth 32

/-- A division form (spec 08 R203, R386). -/
def divisionEff (f : Bin) (x : Iss) (s : State) : Eff :=
  multiCycle x s (if x.wide then 2 else 1) fun _ j => wordOf (scalarVal x f) j

/-- SMOV (spec 08 R203). -/
def execSmov (e : Enc) (s : State) : Host.Outcome State Fault Refusal := issue 0x20 0 e s (scalarEff movBin)
/-- SADD (spec 08 R203). -/
def execSadd (e : Enc) (s : State) : Host.Outcome State Fault Refusal := issue 0x21 0 e s (scalarEff addBin)
/-- SSUB (spec 08 R203). -/
def execSsub (e : Enc) (s : State) : Host.Outcome State Fault Refusal := issue 0x22 0 e s (scalarEff subBin)
/-- SMUL (spec 08 R203). -/
def execSmul (e : Enc) (s : State) : Host.Outcome State Fault Refusal := issue 0x23 0 e s (scalarEff mulBin)
/-- SMULH (spec 08 R203). -/
def execSmulh (e : Enc) (s : State) : Host.Outcome State Fault Refusal := issue 0x24 0 e s (scalarEff mulhBin)
/-- SAND (spec 08 R203). -/
def execSand (e : Enc) (s : State) : Host.Outcome State Fault Refusal := issue 0x27 0 e s (scalarEff andBin)
/-- SOR (spec 08 R203). -/
def execSor (e : Enc) (s : State) : Host.Outcome State Fault Refusal := issue 0x28 0 e s (scalarEff orBin)
/-- SXOR (spec 08 R203). -/
def execSxor (e : Enc) (s : State) : Host.Outcome State Fault Refusal := issue 0x29 0 e s (scalarEff xorBin)
/-- SSHL (spec 08 R203). -/
def execSshl (e : Enc) (s : State) : Host.Outcome State Fault Refusal := issue 0x2A 0 e s (scalarEff shlBin)
/-- SSHR (spec 08 R203). -/
def execSshr (e : Enc) (s : State) : Host.Outcome State Fault Refusal := issue 0x2B 0 e s (scalarEff shrBin)
/-- SSAR (spec 08 R203). -/
def execSsar (e : Enc) (s : State) : Host.Outcome State Fault Refusal := issue 0x2C 0 e s (scalarEff sarBin)
/-- SMIN (spec 08 R203). -/
def execSmin (e : Enc) (s : State) : Host.Outcome State Fault Refusal := issue 0x2D 0 e s (scalarEff minBin)
/-- SMAX (spec 08 R203). -/
def execSmax (e : Enc) (s : State) : Host.Outcome State Fault Refusal := issue 0x2E 0 e s (scalarEff maxBin)
/-- SPOPC (spec 08 R203). -/
def execSpopc (e : Enc) (s : State) : Host.Outcome State Fault Refusal := issue 0x33 0 e s (scalarEff popcBin)
/-- SCLZ (spec 08 R203). -/
def execSclz (e : Enc) (s : State) : Host.Outcome State Fault Refusal := issue 0x34 0 e s (scalarEff clzBin)
/-- SDIV (spec 08 R203). -/
def execSdiv (e : Enc) (s : State) : Host.Outcome State Fault Refusal := issue 0x25 0 e s (divisionEff divBin)
/-- SREM (spec 08 R203). -/
def execSrem (e : Enc) (s : State) : Host.Outcome State Fault Refusal := issue 0x26 0 e s (divisionEff remBin)

/-- The comparison of the two operands on a lane (spec 06 R167, 08 R205, 09 R217). -/
def Iss.compares (x : Iss) (lane : Nat) : Bool :=
  condInt x.e.cond (intVal x.e.ty (x.elem x.e.sa x.e.ty 0 false lane 0)) (intVal x.e.ty (x.elem x.e.sb x.e.ty 0 false lane 0))

/-- A condition as a result (spec 08 R205, 09 R217). -/
def bit64 (b : Bool) : W64 := if b then 1 else 0

/-- SCMP (spec 08 R205). -/
def execScmp (e : Enc) (s : State) : Host.Outcome State Fault Refusal := issue 0x2F 0 e s (pure1 fun x _ => x.deliver false fun _ => bit64 (x.compares x.ul))
/-- SSEL (spec 08 R203). -/
def execSsel (e : Enc) (s : State) : Host.Outcome State Fault Refusal := issue 0x30 0 e s (pure1 fun x _ =>
  x.deliver x.wide fun _ => BitVec.ofNat 64 (if x.word x.e.sc x.ul != 0 then x.scal x.e.sa else x.scal x.e.sb))
/-- SBFE (spec 08 R204). -/
def execSbfe (e : Enc) (s : State) : Host.Outcome State Fault Refusal := issue 0x31 0 e s (pure1 fun x _ =>
  x.deliver x.wide fun _ => BitVec.ofNat 64 (fieldExtract x.e.ty (tyBits x.e.ty) (x.scal x.e.sa) (x.word x.e.sb x.ul)))
/-- SBFI (spec 08 R204). -/
def execSbfi (e : Enc) (s : State) : Host.Outcome State Fault Refusal := issue 0x32 0 e s (pure1 fun x _ =>
  x.deliver x.wide fun _ =>
    BitVec.ofNat 64 (fieldInsert (tyBits x.e.ty) (x.scal x.e.sa) (x.scal x.e.sb) (x.word x.e.sc x.ul)))

/-- Whether a form of class A writes a pair: a 64-bit type, or f32 under PK (spec 09 R210). -/
def Iss.two (x : Iss) : Bool := tyPair x.opc x.e

/-- An element-wise form: f gives the pattern of element el of a lane, from the pattern of each operand (spec 09 R210). -/
def elementwise (f : Iss → Nat → Nat → Nat) : Iss → State → Eff := pure1 fun x _ =>
  x.deliver x.two fun i => Iss.packResult x.e.ty x.e.pk ((Iss.elems x.e.ty x.e.pk |> List.range).map (f x i))

/-- The pattern of an operand's element in a form of class A. -/
def Iss.el (x : Iss) (a : Src) (i el : Nat) : Nat := x.elem a x.e.ty x.e.prec x.e.pk i el

/-- An element-wise form of two operands. -/
def vectorEff (f : Bin) : Iss → State → Eff := elementwise fun x i el => f x.e.ty x.e.sat (x.el x.e.sa i el) (x.el x.e.sb i el)

/-- VADD (spec 09 R214). -/
def execVadd (e : Enc) (s : State) : Host.Outcome State Fault Refusal := issue 0x51 0 e s (vectorEff addBin)
/-- VSUB (spec 09 R214). -/
def execVsub (e : Enc) (s : State) : Host.Outcome State Fault Refusal := issue 0x52 0 e s (vectorEff subBin)
/-- VMUL (spec 09 R214). -/
def execVmul (e : Enc) (s : State) : Host.Outcome State Fault Refusal := issue 0x55 0 e s (vectorEff mulBin)
/-- VMULH (spec 09 R214). -/
def execVmulh (e : Enc) (s : State) : Host.Outcome State Fault Refusal := issue 0x56 0 e s (vectorEff mulhBin)
/-- VABSD (spec 09 R214). -/
def execVabsd (e : Enc) (s : State) : Host.Outcome State Fault Refusal := issue 0x59 0 e s (vectorEff absdBin)
/-- VAND (spec 09 R214). -/
def execVand (e : Enc) (s : State) : Host.Outcome State Fault Refusal := issue 0x5A 0 e s (vectorEff andBin)
/-- VOR (spec 09 R214). -/
def execVor (e : Enc) (s : State) : Host.Outcome State Fault Refusal := issue 0x5B 0 e s (vectorEff orBin)
/-- VXOR (spec 09 R214). -/
def execVxor (e : Enc) (s : State) : Host.Outcome State Fault Refusal := issue 0x5C 0 e s (vectorEff xorBin)
/-- VNOT (spec 09 R214). -/
def execVnot (e : Enc) (s : State) : Host.Outcome State Fault Refusal := issue 0x5D 0 e s (vectorEff notBin)
/-- VSHL (spec 09 R214). -/
def execVshl (e : Enc) (s : State) : Host.Outcome State Fault Refusal := issue 0x5E 0 e s (vectorEff shlBin)
/-- VSHR (spec 09 R214). -/
def execVshr (e : Enc) (s : State) : Host.Outcome State Fault Refusal := issue 0x5F 0 e s (vectorEff shrBin)
/-- VSAR (spec 09 R214). -/
def execVsar (e : Enc) (s : State) : Host.Outcome State Fault Refusal := issue 0x60 0 e s (vectorEff sarBin)
/-- VROT (spec 09 R214). -/
def execVrot (e : Enc) (s : State) : Host.Outcome State Fault Refusal := issue 0x61 0 e s (vectorEff rotBin)
/-- VMIN (spec 09 R214). -/
def execVmin (e : Enc) (s : State) : Host.Outcome State Fault Refusal := issue 0x62 0 e s (vectorEff minBin)
/-- VMAX (spec 09 R214). -/
def execVmax (e : Enc) (s : State) : Host.Outcome State Fault Refusal := issue 0x63 0 e s (vectorEff maxBin)
/-- VCLZ (spec 09 R214). -/
def execVclz (e : Enc) (s : State) : Host.Outcome State Fault Refusal := issue 0x64 0 e s (vectorEff clzBin)
/-- VPOPC (spec 09 R214). -/
def execVpopc (e : Enc) (s : State) : Host.Outcome State Fault Refusal := issue 0x65 0 e s (vectorEff popcBin)

/-- A destination's markers after a move of whole registers: each destination register takes its source's (spec 02 R59). -/
def Group.moveMarks (g : Group) (x : Iss) (k n : Nat) (m : Nat → Nat → Bool) : Group :=
  if x.e.nw then g
  else (List.range n).foldl (fun g j =>
    { g with vregs := g.vregs.modify (k + j) fun r =>
        { r with mark := (r.mark &&& ~~~x.writers) ||| (maskOf x.g.width (m j) &&& x.writers) } }) g

/-- VMOV: patterns pass unchanged, with their markers where the destination is a vector register (spec 09 R214, 02 R59). -/
def vmovEff : Iss → State → Eff := pure1 fun x _ =>
  let r := x.deliver x.two fun i =>
    Iss.packResult x.e.ty x.e.pk ((Iss.elems x.e.ty x.e.pk |> List.range).map fun el => x.el x.e.sa i el)
  match x.e.dst, x.e.sa with
  | .v k, .v a => (r.1.moveMarks x k (if x.two then 2 else 1) fun j i => x.g.marked (a.val + j) (if x.e.u then x.ul else i), r.2)
  | _, _ => r

/-- VMOV (spec 09 R214). -/
def execVmov (e : Enc) (s : State) : Host.Outcome State Fault Refusal := issue 0x50 0 e s vmovEff

/-- VADDC and VSUBB: the result, and the carry or borrow into p47 whatever NW is (spec 09 R215). -/
def carryEff (f : Nat → Nat → Nat → Bool → Nat × Bool) : Iss → State → Eff := pure1 fun x _ =>
  let n := tyBits x.e.ty
  let r (i : Nat) : Nat × Bool := f n (x.el x.e.sa i 0) (x.el x.e.sb i 0) (x.g.p 47 i)
  let d := x.deliver x.wide fun i => BitVec.ofNat 64 (r i).1
  (setCarry d.1 x.writers (maskOf x.g.width fun i => (r (if x.e.u then x.ul else i)).2), d.2)

/-- VADDC (spec 09 R215). -/
def execVaddc (e : Enc) (s : State) : Host.Outcome State Fault Refusal := issue 0x53 0 e s (carryEff addCarry)
/-- VSUBB (spec 09 R215). -/
def execVsubb (e : Enc) (s : State) : Host.Outcome State Fault Refusal := issue 0x54 0 e s (carryEff subBorrow)
/-- VMAD (spec 09 R214). -/
def execVmad (e : Enc) (s : State) : Host.Outcome State Fault Refusal := issue 0x57 0 e s (elementwise fun x i el =>
  intResult x.e.ty false (intVal x.e.ty (x.el x.e.sa i el) * intVal x.e.ty (x.el x.e.sb i el) + intVal x.e.ty (x.el x.e.sc i el)))

/-- A 32-bit operand of VMADW as a value of the type's signedness (spec 09 R216). -/
def Iss.narrow (x : Iss) (a : Src) (i : Nat) : Int :=
  let w := (x.word a i).toNat
  if tySigned x.e.ty then sextN w 32 else w

/-- VMADW (spec 09 R216). -/
def execVmadw (e : Enc) (s : State) : Host.Outcome State Fault Refusal := issue 0x58 0 e s (pure1 fun x _ =>
  x.deliver true fun i =>
    BitVec.ofInt 64 (x.narrow x.e.sa i * x.narrow x.e.sb i + intVal x.e.ty (x.pair x.e.sc i (tySigned x.e.ty)).toNat))
/-- VBFE (spec 09 R214, 08 R204). -/
def execVbfe (e : Enc) (s : State) : Host.Outcome State Fault Refusal := issue 0x66 0 e s (elementwise fun x i el =>
  fieldExtract x.e.ty (tyBits x.e.ty) (x.el x.e.sa i el) (x.word x.e.sb i))
/-- VBFI (spec 09 R214, 08 R204). -/
def execVbfi (e : Enc) (s : State) : Host.Outcome State Fault Refusal := issue 0x67 0 e s (elementwise fun x i el =>
  fieldInsert (tyBits x.e.ty) (x.el x.e.sa i el) (x.el x.e.sb i el) (x.word x.e.sc i))
/-- VCMP (spec 09 R217). -/
def execVcmp (e : Enc) (s : State) : Host.Outcome State Fault Refusal := issue 0x68 0 e s (pure1 fun x _ => x.deliver false fun i => bit64 (x.compares i))

/-- The marked register that VSEL's selected source reads (spec 09 R217, 02 R59): it matters where the destination is a scalar,
for there markers cannot move. -/
def Iss.selMarked (x : Iss) : Option Nat :=
  x.readers.findSome? fun i => match if x.pred x.e.sc i then x.e.sa else x.e.sb with
    | .v k => ((List.range (if x.two then 2 else 1)).map fun j => k.val + j).find? fun r => x.g.marked r i
    | _ => none

/-- VSEL (spec 09 R217, 02 R59). -/
def vselEff (x : Iss) (s : State) : Eff :=
  let src (i : Nat) : Src := if x.pred x.e.sc i then x.e.sa else x.e.sb
  let res := x.deliver x.two fun i =>
    Iss.packResult x.e.ty x.e.pk ((Iss.elems x.e.ty x.e.pk |> List.range).map fun el => x.el (src i) i el)
  match x.e.dst, x.selMarked with
  | .v k, _ =>
    let g := res.1.moveMarks x k (if x.two then 2 else 1) fun j i0 =>
      let i := if x.e.u then x.ul else i0
      match src i with
      | .v a => x.g.marked (a.val + j) i
      | _ => false
    .done (s.setGroup x.gi g) res.2
  | _, some r => .trap s 0x02 0 (BitVec.ofNat 64 r)
  | _, none => .done (s.setGroup x.gi res.1) res.2

/-- VSEL (spec 09 R217). -/
def execVsel (e : Enc) (s : State) : Host.Outcome State Fault Refusal := issue 0x69 0 e s vselEff

end Sys2Proof.Machine
end

