-- ==== Sys2Proof/Machine/Ranges.lean ====
section
/-! DEFINITION. Accesses of a range of bytes by a group or by an engine that acts for it, what becomes of an engine's operation
that faults (spec 10 R249), and limb arrays (04 R107, R108). -/

namespace Sys2Proof.Machine

/-- The pieces of a range that are resolved one by one: within a line, and word by word in K, whose end lies anywhere. -/
def piecesOf (sp : Space) (a n : Nat) : List (Nat × Nat) :=
  match sp with
  | .k => (List.range ((n + 3) / 4)).map fun i => (a + 4 * i, min 4 (n - 4 * i))
  | _ => lineChunks a n

/-- Where the pieces of a range lie, up to the first that faults. -/
def State.placePieces (s : State) (gi : Nat) (g : Group) (eng : Bool) (k : AccK) (sp : Space) :
    List (Nat × Nat) → State × List (Place × Nat) × Option Flt
  | [] => (s, [], none)
  | c :: cs =>
    let r := s.resolve gi g eng k sp (BitVec.ofNat 64 c.1) c.2
    match r.2 with
    | .error f => (r.1, [], some f)
    | .ok p =>
      let q := State.placePieces r.1 gi g eng k sp cs
      (q.1, (p, c.2) :: q.2.1, q.2.2)

/-- Where a range lies, up to the first fault. -/
def State.placeRange (s : State) (gi : Nat) (g : Group) (eng : Bool) (k : AccK) (sp : Space) (a : W64) (n : Nat) :
    State × List (Place × Nat) × Option Flt :=
  s.placePieces gi g eng k sp (piecesOf sp a.toNat n)

/-- The bytes of places. -/
def State.readPlaces (s : State) (ps : List (Place × Nat)) : List Byte := ps.flatMap fun p => s.readAt p.1 p.2

/-- Bytes written over places in turn. -/
def State.writePlaces (s : State) : List (Place × Nat) → List Byte → State
  | [], _ => s
  | p :: ps, bs => State.writePlaces (s.writeAt p.1 (bs.take p.2)) ps (bs.drop p.2)

/-- The device bytes of places, for the poison they clear (spec 04 R118). -/
def devRanges (ps : List (Place × Nat)) : List (Nat × Nat) := ps.flatMap fun p => (p.1.devBytes p.2).toList

/-- A range read whole. -/
def State.readRange (s : State) (gi : Nat) (g : Group) (eng : Bool) (k : AccK) (sp : Space) (a : W64) (n : Nat) :
    State × Except Flt (List Byte) :=
  let r := s.placeRange gi g eng k sp a n
  (r.1, match r.2.2 with
    | some f => .error f
    | none => .ok (r.1.readPlaces r.2.1))

/-- Where n bytes of one access of a group lie: in K word by word, since the constant block may begin anywhere in a line (spec 04 R100); else
in one place. -/
def State.placesAt (s : State) (gi : Nat) (g : Group) (k : AccK) (sp : Space) (a : W64) (n : Nat) : State × Except Flt (List (Place × Nat)) :=
  match sp with
  | .k =>
    match s.constAt g a n with
    | .error f => (s, .error f)
    | .ok _ =>
      let r := s.placeRange gi g false k .k a n
      (r.1, match r.2.2 with
        | some f => .error f
        | none => .ok r.2.1)
  | sp =>
    let r := s.resolve gi g false k sp a n
    (r.1, r.2.map fun p => [(p, n)])

/-- n bytes that the specification leaves unspecified (log 3). -/
def State.freeBytes (s : State) (n : Nat) : List Byte × State :=
  let d := s.draw
  ((List.range n).map (Config.freeByte d.1), d.2)

/-- A range of a space. -/
abbrev Rng := Space × W64 × Nat

/-- The device bytes of ranges, as far as they lie anywhere. -/
def State.rangeBytes (s : State) (gi : Nat) (g : Group) (rs : List Rng) : List (Nat × Nat) :=
  rs.flatMap fun r => devRanges (s.placeRange gi g true .engWrite r.1 r.2.1 r.2.2).2.1

/-- The bytes of ranges made unspecified, as far as they lie anywhere (spec 10 R249 item 6; log 3). -/
def State.spoil (s : State) (gi : Nat) (g : Group) (rs : List Rng) : State :=
  rs.foldl (fun s w =>
    let r := s.placeRange gi g true .engWrite w.1 w.2.1 w.2.2
    let free := r.1.freeBytes w.2.2
    free.2.writePlaces r.2.1 free.1) s

/-- How an engine's operation ends, with the ranges that it has written: complete with its landings; at a fault; or with a part of it
done, which stands, and the rest as its body, where the rest waits for a page that is not present or for a budget; paid: what is charged of
that in advance; tried: the state to which its next requests would lead. -/
inductive Run where
  | ok (s : State) (wrote : List Rng) (lands : List Land)
  | flt (s : State) (wrote : List Rng) (f : Flt) (k : AccK)
  | part (s : State) (wrote : List Rng) (body : OpBody) (paid : List (Nat × Nat)) (tried : State) (f : Flt) (k : AccK)

/-- The ranges that an operation has written. -/
def Run.wrote (r : Run) : List Rng :=
  match r with
  | .ok _ w _ => w
  | .flt _ w _ _ => w
  | .part _ w _ _ _ _ _ => w

/-- What a class has used of its budget on a die. -/
def State.usedOn (s : State) (k d : Nat) : Nat := ((s.dies[d]?).bind fun x => x.bwUsed[k]?).getD 0

/-- The bytes that a class may still use on a die before it is held there; none where nothing holds it: it has no budget, or no request of
another class waits (spec 18 R326). -/
def State.leftOn (s : State) (k d : Nat) : Option Nat :=
  match (s.dies[d]?).bind fun x => x.budget k with
  | some b => if s.othersWait d k then some (b - s.usedOn k d) else none
  | none => none

/-- The bytes of the largest request of an engine. -/
def requestBytes : Nat := 256

/-- Whether engine requests that lead from one state to another are held on a die: its class has used its budget before the last of them
(spec 18 R326; log 42). -/
def State.heldBack (s0 s : State) : Bool :=
  s0.capped && (List.range s0.dies.length).any fun d => [1, 2].any fun k =>
    let n := s.usedOn k d - s0.usedOn k d
    0 < n && (s0.leftOn k d).any fun m => m = 0 || m + requestBytes ≤ n

/-- Bytes added to those paid of an operation on a die. -/
def addPaid (l : List (Nat × Nat)) (d n : Nat) : List (Nat × Nat) :=
  if l.any fun p => p.1 = d then l.map fun p => if p.1 = d then (d, p.2 + n) else p else l ++ [(d, n)]

/-- An operation whose requests are held: of those that lead from one state to another it makes what the budgets still allow, which is
charged, and it completes once all are made (spec 18 R326; log 42). -/
def State.pay (s0 s : State) (gi id : Nat) : State :=
  (List.range s0.dies.length).foldl (fun t d => [1, 2].foldl (fun t k =>
    let n := s.usedOn k d - s0.usedOn k d
    if n = 0 then t
    else
      let m := min n ((s0.leftOn k d).getD n)
      { t with dies := t.dies.modify d fun x => { x with bwUsed := x.bwUsed.modify k (· + m) },
               groups := t.groups.modify gi fun g => g.modOp id fun o => { o with paid := addPaid o.paid d m } }) t) s0

/-- The fault with which an operation ends, as its group takes it; none where it waits (spec 10 R249, 19 R328, 20 R357). -/
def Flt.due? (f : Flt) : Option Due :=
  match f with
  | .mem kind a => some { kind := kind, addr := a }
  | .noKey a => some { kind := 0x05, addr := a }
  | _ => none

/-- An operation paused on a fault record (spec 10 R249 item 5, 19 R335). One that waits for no page stays as it is. -/
def State.pauseOp (s : State) (gi id : Nat) (f : Flt) (k : AccK) : State :=
  match f, s.groups[gi]? with
  | .absent va level, some g =>
    { s.modGroup gi (fun h => h.modOp id fun o => { o with phase := .paused }) with
        frRecs := s.frRecs ++ [{ seq := none, g := gi, op := some id, kind := k.code, va := va, level := level, ctx := g.ctx,
                                 ch := false }] }
  | _, _ => s

/-- The end of an operation. One without a translation has changed nothing but for the parts of it that are done, and pauses on a fault
record; another fault completes it as a faulted operation (spec 10 R249 items 5 and 6, 19 R335). One whose class is held has what it
may request charged, and changes nothing else yet (18 R326; log 42). s0: the state before it. -/
def Run.finish (r : Run) (s0 : State) (gi id : Nat) (faultLands : List Land) : State :=
  match r with
  | .ok s _ lands => if s0.heldBack s then s0.pay s gi id else s.finishOp gi id lands none
  | .part s wrote body paid tried f k =>
    if s0.heldBack s then s0.pay s gi id
    else
      let s1 := s.modGroup gi fun h => h.modOp id fun o => { o with body := body, wrote := wrote, paid := paid }
      (if s.heldBack tried then s1.pay tried gi id else s1).pauseOp gi id f k
  | .flt s _ f k =>
    if s0.heldBack s then s0.pay s gi id
    else
      match f.due?, s0.groups[gi]? with
      | some d, some g => (s.reelPoison g true f).finishOp gi id faultLands (some d)
      | _, _ => s0.pauseOp gi id f k

/-- A point at which an engine can stop: the state there, what is then left to do, the ranges written, what is charged of the rest. -/
structure Mark where
  s : State
  body : OpBody
  wrote : List Rng
  credit : List (Nat × Nat)

/-- An engine at work for a group: the state so far; the ranges it has written and may yet leave unspecified, those that stand, and the
device bytes of both; where it last could stop; its traffic class; what of its requests is charged already, by die. -/
structure Eng where
  gi : Nat
  g : Group
  s : State
  wrote : List Rng := []
  past : List Rng := []
  places : List (Nat × Nat) := []
  kept : Option Mark := none
  cls : Nat := 1
  credit : List (Nat × Nat) := []

/-- What stops an engine: a fault of an access of a kind. -/
abbrev Stop := Eng × Flt × AccK

/-- An engine that begins with an operation. -/
def Eng.start (s : State) (gi : Nat) (g : Group) (o : Op) : Eng := { gi := gi, g := g, s := s, credit := o.paid }

/-- An engine that goes on with an operation of which parts are done. stands: whether what they wrote stands whatever follows. -/
def Eng.resume (s : State) (gi : Nat) (g : Group) (o : Op) (stands : Bool) : Eng :=
  { gi := gi, g := g, s := s, wrote := if stands then [] else o.wrote, past := if stands then o.wrote else [],
    places := if s.poison.isEmpty then [] else s.rangeBytes gi g o.wrote, credit := o.paid }

/-- A point at which an engine can stop, with what is left to do there. -/
def Eng.mayStop (e : Eng) (body : OpBody) : Eng := { e with kept := some { s := e.s, body := body, wrote := e.past ++ e.wrote, credit := e.credit } }

/-- What an engine has done since it could stop last, unless a budget holds a request of that (spec 18 R326). -/
def Eng.goOn (e : Eng) : Except Stop Eng :=
  match e.kept with
  | some m => if m.s.heldBack e.s then .error (e, .wait 17 [], .engRead) else .ok e
  | none => .ok e

/-- Requests of an engine, charged to its class as far as they have not been (spec 18 R326; log 42). -/
def Eng.charge (e : Eng) (rs : List (Nat × Nat)) : Eng :=
  if e.s.capped then
    rs.foldl (fun e r =>
      let d := homeDie r.1
      let m := min (tagOf e.credit d) r.2
      { e with credit := e.credit.map fun p => if p.1 = d then (d, p.2 - m) else p, s := e.s.charge e.cls [(r.1, r.2 - m)] }) e
  else e

/-- Bytes read by an engine, charged to its class (spec 18 R326). -/
def Eng.read (e : Eng) (sp : Space) (a : W64) (n : Nat) : Except Stop (Eng × List Byte) :=
  let r := e.s.placeRange e.gi e.g true .engRead sp a n
  match r.2.2 with
  | some f => .error ({ e with s := r.1 }, f, .engRead)
  | none => .ok (({ e with s := r.1 } : Eng).charge (devRanges r.2.1), r.1.readPlaces r.2.1)

/-- Bytes written by an engine, charged to its class. A line of them that its writes now cover whole loses its poison (spec 04 R118). -/
def Eng.write (e : Eng) (sp : Space) (a : W64) (bs : List Byte) : Except Stop Eng :=
  let r := e.s.placeRange e.gi e.g true .engWrite sp a bs.length
  let places := e.places ++ devRanges r.2.1
  let e0 := ({ e with s := r.1.writePlaces r.2.1 bs } : Eng).charge (devRanges r.2.1)
  let e1 : Eng := { e0 with s := e0.s.clearPoisonOf places (devRanges r.2.1), wrote := e.wrote ++ [(sp, a, bs.length)], places := places }
  match r.2.2 with
  | some f => .error (e1, f, .engWrite)
  | none => .ok e1

/-- Bytes that an engine wrote made unspecified (spec 10 R249 item 6; log 3). -/
def Eng.spoil (e : Eng) : State := e.s.spoil e.gi e.g e.wrote

/-- An engine's end. -/
def runOf (r : Except Stop (Eng × List Land)) : Run :=
  match r with
  | .ok (e, lands) => .ok e.s (e.past ++ e.wrote) lands
  | .error (e, f, k) => match e.kept, f.due? with
    | some m, none => .part m.s m.wrote m.body m.credit e.s f k
    | _, _ => .flt e.spoil (e.past ++ e.wrote) f k

/-- The group and the operation that an event names, where the operation is at hand for its unit. -/
def State.opAt (s : State) (gi id : Nat) : Option (Group × Op) :=
  match s.groups[gi]? with
  | none => none
  | some g => if g.live then (g.op? id).map fun o => (g, o) else none

/-- The word at byte 4 i of a list of bytes. -/
def wordAt (bs : List Byte) (i : Nat) : W32 := BitVec.ofNat 32 (leNat ((bs.drop (4 * i)).take 4))

/-- The words of a list of bytes. -/
def wordsOf (bs : List Byte) : List W32 := (List.range (bs.length / 4)).map (wordAt bs)

/-- The bytes of words. -/
def bytesOf (ws : List W32) : List Byte := ws.flatMap fun w => leBytes 4 w.toNat

/-- The header that 16 bytes hold (spec 04 R107). -/
def hdrOf (bs : List Byte) : LimbHdr := { len := wordAt bs 0, cap := wordAt bs 1, flags := wordAt bs 2, rsvd := wordAt bs 3 }

/-- Whether a reader rejects a header (spec 04 R108). -/
def LimbHdr.bad (h : LimbHdr) : Bool := h.cap < h.len || h.rsvd != 0 || h.flags.extractLsb' 2 30 != 0

/-- The bytes of a header. -/
def LimbHdr.bytes (h : LimbHdr) : List Byte := bytesOf [h.len, h.cap, h.flags, h.rsvd]

/-- The header of a number of n limbs written with a capacity; heap: the HEAP flag that stands (spec 09 R233, R235). -/
def headerFor (n cap : Nat) (norm heap : Bool) : LimbHdr :=
  { len := BitVec.ofNat 32 n, cap := BitVec.ofNat 32 cap, flags := (if norm then 1 else 0) + (if heap then 2 else 0), rsvd := 0 }

/-- Address of limb 0. -/
def limbsAt (a : W64) : W64 := a + 16

end Sys2Proof.Machine
end

