-- ==== Sys2Proof/Machine/Perform.lean ====
section
/-! DEFINITION. The accesses that a group's loads, stores and atomics make after their issue, one by one: what orders them (spec 04
R122 to R124), what each does (10 R241 to R247, 04 R133), and their completion (10 R241, R248). -/

namespace Sys2Proof.Machine

/-- The new pattern of an atomic operation on a type's patterns: type, old, operand, third operand. none: no write. -/
abbrev AtomOp := Nat → Nat → Nat → Nat → Option Nat

/-- The format of a class M float type. -/
def atomFmt (ty : Nat) : Fmt := fmtOf ty 0

/-- A sum: modulo 2^N, or rounded to nearest even (spec 10 R243). -/
def atomSum (ty a b : Nat) : Nat := if tyInt ty then addBin ty false a b else addF (atomFmt ty) false 0 a b

def atomAdd : AtomOp := fun ty old b _ => some (atomSum ty old b)
def atomAnd : AtomOp := fun _ old b _ => some (old &&& b)
def atomOr : AtomOp := fun _ old b _ => some (old ||| b)
def atomXor : AtomOp := fun _ old b _ => some (old ^^^ b)
def atomMin : AtomOp := fun ty old b _ =>
  some (if tyInt ty then minBin ty false old b else minMaxF (atomFmt ty) false old b)
def atomMax : AtomOp := fun ty old b _ =>
  some (if tyInt ty then maxBin ty false old b else minMaxF (atomFmt ty) true old b)
def atomExch : AtomOp := fun _ _ b _ => some b
def atomCas : AtomOp := fun _ old b c => if old = b then some c else none

/-- The atomic operation of a SUB code (spec 10 R243). -/
def atomOf (sub : Nat) : AtomOp :=
  match sub with
  | 0 => atomAdd | 1 => atomAnd | 2 => atomOr | 3 => atomXor | 4 => atomMin | 5 => atomMax | 6 => atomExch | _ => atomCas

/-- The things of a list in an order that a counter's free choices fix (log 3). -/
def freeOrder {α : Type} (c : Nat) : Nat → List α → List α
  | 0, _ => []
  | n + 1, l =>
    let i := Config.freeChoice c (n + 1) % (n + 1)
    (l[i]?).toList ++ freeOrder c n (l.eraseIdx i)

/-- Leaves summed in a tree that a counter's free choices fix (spec 04 R133; log 3). -/
def freeTree (f : Nat → Nat → Nat) (c : Nat) : Nat → List Nat → Nat
  | 0, l => l.headD 0
  | n + 1, l =>
    let i := Config.freeChoice c (2 * n + 2) % l.length
    let rest := l.eraseIdx i
    let j := Config.freeChoice c (2 * n + 3) % rest.length
    freeTree f c n (f ((l[i]?).getD 0) ((rest[j]?).getD 0) :: rest.eraseIdx j)

/-- ATOM.XADD: a sum over 96 bits with its sign fill (spec 10 R244). -/
def xaddCell (x b : Nat) : Nat := wrapN (sextN (wrapN (sextN x 96 + sextN b 96) 96) 96) 128

/-- Whether an access is an acquire that orders the accesses of other agents: one of group scope synchronises with none (spec 04 R120,
R121, R124; log 10). -/
def Acc.acquires (a : Acc) : Bool := a.scope != 0 && [1, 3, 4].contains a.ord
/-- Whether it is such a release. -/
def Acc.releases (a : Acc) : Bool := a.scope != 0 && [2, 3, 4].contains a.ord

/-- The place of an access of a group, its team taken as number 0: every Stage place of a group lies in its own team. -/
def Place.own (p : Place) : Place :=
  match p with
  | .stage _ odd swz off => .stage 0 odd swz off
  | .boom _ odd off => .boom 0 odd off
  | p => p

/-- Whether an access p of an instruction is performed before an access q of a later one of its group (spec 04 R124). -/
def Acc.first (a : Acc) (p : Access) (b : Acc) (q : Access) : Bool :=
  a.acquires || b.releases || (a.ord = 4 && b.ord = 4) || p.place.own.meets p.n q.place.own q.n

/-- Whether the accesses of an instruction apply in no order: loads, and a float sum that returns values (spec 04 R122, R133). -/
def Acc.loose (a : Acc) : Bool :=
  match a.kind with
  | .load => true
  | .atom 0 | .red 0 => !tyInt a.ety
  | _ => false

/-- Whether an access p of an instruction is performed before another of its accesses: in lane order on one location, and in turn
for an array (spec 04 R122, 10 R242). -/
def Acc.within (a : Acc) (p q : Access) : Bool :=
  !a.loose && p.lane < q.lane && (a.kind = .array || p.place.meets p.n q.place q.n)

/-- The accesses that an operation has still to perform. -/
def Op.acc? (o : Op) : Option Acc :=
  match o.body with
  | .mem a => if o.phase = .queued then some a else none
  | _ => none

/-- Whether an access of an operation has to wait for none. -/
def Group.performable (g : Group) (id : Nat) (a : Acc) (t : Access) : Bool :=
  !((g.ops.takeWhile fun o => o.id != id).any fun o => match o.acc? with
    | some b => b.todo.any fun u => b.first u a t
    | none => false) && !a.todo.any fun u => a.within u t

/-- The place of an access of a group, as the state now numbers its team. -/
def State.here (s : State) (g : Group) (p : Place) : Place :=
  match p with
  | .stage _ odd swz off => .stage ((s.teamIdx g.grid g.team).getD s.teams.length) odd swz off
  | .boom _ odd off => .boom ((s.teamIdx g.grid g.team).getD s.teams.length) odd off
  | p => p

/-- Dirty data of a line written back (spec 10 R247). -/
def State.cleanLine (s : State) (line : Nat) : State :=
  { s with cache := s.cache.map fun c => if c.line = line then { c with dirty := false } else c }

/-- Whether a core lies in the scope instance of a group at a scope (spec 04 R119). -/
def inScope (scope : Nat) (g : Group) (t : Option Team) (core : Nat) : Bool :=
  match scope with
  | 0 => core = g.core
  | 1 => core = g.core || (core = partner g.core && (t.map Team.pair).getD false)
  | 2 => core = g.core || core = partner g.core
  | 3 => dieOf core = dieOf g.core
  | _ => true

/-- A line's copies discarded from the caches of a scope instance: first-level caches, and the home slice of the memory-side cache where
the instance holds it: at die scope a slice of the group's own die, from device scope up any (spec 10 R247, 04 R119). -/
def State.dropLine (s : State) (g : Group) (scope : Nat) (host : Bool) (line : Nat) : State :=
  let slice := !host && (4 ≤ scope || (scope = 3 && homeDie (128 * line) = dieOf g.core))
  { s with cores := (List.range s.cores.length).zipWith (fun i c =>
             if inScope scope g (s.teamOf g) i then { c with l1 := c.l1.filter fun l => l.host != host || l.line != line } else c) s.cores,
           cache := if slice then s.cache.filter fun c => c.line != line else s.cache }

/-- What an operation has still to do after one of its accesses: the value it read is kept by its lane. -/
def Acc.performed (a : Acc) (lane : Nat) (old : Option Nat) : Acc :=
  { a with todo := a.todo.filter fun t => t.lane != lane,
           got := match old with
             | some v => (lane, v) :: a.got
             | none => a.got }

/-- An access of an operation marked as performed. A line that an instruction stores whole loses its poison with its last access to it (spec
04 R118). -/
def State.performed (s : State) (gi id : Nat) (a : Acc) (lane : Nat) (old : Option Nat) : State :=
  let b := a.performed lane old
  let s1 := s.modGroup gi fun g => g.modOp id fun o => { o with body := .mem b }
  let on (ts : List Access) (l : Nat) : Bool := (devPlaces (ts.map Access.place) 1).any fun r => r.1 / 128 = l
  let now := a.todo.filter fun t => t.lane = lane
  { s1 with poison := s1.poison.filter fun l => !(on now l && coversLine b.wrote l && !on b.todo l) }

/-- RED float sums of any groups that can combine with one at its cell before they reach it: group, operation, lane, value (spec 04
R133). -/
def State.redMates (s : State) (a : Acc) (t : Access) (cell : Place) : List (Nat × Nat × Nat × Nat) :=
  ((List.range s.groups.length).zip s.groups).flatMap fun (gi, g) =>
    if !g.live then [] else g.ops.flatMap fun o => match o.acc? with
      | some b => if b.kind = .red 0 && b.ety = a.ety then
          (b.todo.filter fun u => (s.here g u.place).byteId 0 = cell.byteId 0 && u.n = t.n && g.performable o.id b u).map
            fun u => (gi, o.id, u.lane, u.a)
        else []
      | none => []

/-- An access of an operation, if it has still to perform it. -/
def State.accessOf (s : State) (gi id lane : Nat) : Option (Group × Acc × Access) :=
  (s.groups[gi]?).bind fun g => (g.op? id).bind fun o => (o.acc?).bind fun a =>
    (a.todo.find? fun t => t.lane = lane).map fun t => (g, a, t)

/-- RED float sums marked as performed. -/
def State.performedAll (s : State) (l : List (Nat × Nat × Nat × Nat)) : State :=
  l.foldl (fun s m => match s.accessOf m.1 m.2.1 m.2.2.1 with
    | some (_, a, _) => s.performed m.1 m.2.1 a m.2.2.1 none
    | none => s) s

/-- A float sum without a result performed, combined with others that wait at its cell: which of them, and in what tree, is left open
(spec 04 R133; log 3). -/
def State.performRed (s : State) (gi id : Nat) (a : Acc) (t : Access) (cell : Place) : State :=
  let d := s.draw
  let mates := (s.redMates a t cell).filter fun m => !(m.1 = gi && m.2.1 = id && m.2.2.1 = t.lane)
  let with_ := ((List.range mates.length).zip mates).filterMap fun x => if Config.freeChoice d.1 x.1 % 2 = 1 then some x.2 else none
  let leaves := s.loadAt cell t.n :: t.a :: with_.map fun m => m.2.2.2
  let tree := d.2.draw
  let sum := freeTree (atomSum a.ety) tree.1 (with_.length + 1) leaves
  ((tree.2.storeAt cell t.n sum).performedAll with_).performed gi id a t.lane none

/-- One access performed, whatever orders it (spec 10 R241 to R247). -/
def State.perform (s : State) (gi id lane : Nat) : State :=
  match s.accessOf gi id lane with
  | none => s
  | some (g, a, t) =>
    let p := s.here g t.place
    let old := s.loadAt p t.n
    match a.kind with
    | .load => s.performed gi id a lane (some old)
    | .store | .array => (s.storeAt p t.n t.a).performed gi id a lane none
    | .atom sub => (match atomOf sub a.ety old t.a t.b with
        | some v => s.storeAt p t.n v
        | none => s).performed gi id a lane (some old)
    | .red sub =>
      if sub = 0 && !tyInt a.ety then s.performRed gi id a t p
      else (match atomOf sub a.ety old t.a t.b with
        | some v => s.storeAt p t.n v
        | none => s).performed gi id a lane none
    | .cas => (if old = t.a then s.storeAt p t.n t.b else s).performed gi id a lane (some old)
    | .xadd => (s.storeAt p t.n (xaddCell old t.a)).performed gi id a lane (some old)
    | .clean => (match p with
        | .dev pa _ => s.cleanLine (pa / 128)
        | _ => s).performed gi id a lane none
    | .inval => (match p with
        | .dev pa _ => (s.cleanLine (pa / 128)).dropLine g a.scope false (pa / 128)
        | .host pa => s.dropLine g a.scope true (pa / 128)
        | _ => s).performed gi id a lane none

/-- Every access of an operation performed: in lane order, or where it has none in an order left open (spec 04 R122, R133; log 3). -/
def State.performOp (s : State) (gi id : Nat) : State :=
  match (s.groups[gi]?).bind fun g => (g.op? id).bind Op.acc? with
  | none => s
  | some a =>
    let lanes := a.todo.map Access.lane
    if a.kind = .atom 0 && a.loose && 1 < lanes.length then
      let d := s.draw
      (freeOrder d.1 lanes.length lanes).foldl (fun s k => s.perform gi id k) d.2
    else lanes.foldl (fun s k => s.perform gi id k) s

/-- The operations of a group performed up to the last of some that meet a condition. -/
def State.settleOps (s : State) (gi : Nat) (ops : List Op) (p : Acc → Access → Bool) : State :=
  let meets (o : Op) : Bool := match o.acc? with
    | some a => a.todo.any (p a)
    | none => false
  ((ops.reverse.dropWhile fun o => !meets o).reverse.map Op.id).foldl (fun s id => s.performOp gi id) s

/-- The accesses of a group performed that some condition names, and those issued before them. -/
def State.settle (s : State) (gi : Nat) (p : Acc → Access → Bool) : State :=
  match s.groups[gi]? with
  | none => s
  | some g => s.settleOps gi g.ops p

/-- Every access that a group has issued performed. -/
def State.settleAll (s : State) (gi : Nat) : State := s.settle gi fun _ _ => true

/-- What a group's accesses of some bytes at their issue come after: earlier accesses of those bytes, and acquires; for a release,
every one (spec 04 R124). -/
def State.settleFor (s : State) (gi : Nat) (release : Bool) (ps : List (Place × Nat)) : State :=
  s.settle gi fun a t => release || a.acquires || ps.any fun p => t.place.own.meets t.n p.1.own p.2

/-- A group's accesses that it has issued to poisoned lines performed before one that reads: a line that a store of its own writes whole is
read as stored (spec 04 R118, 20 R357). -/
def State.settlePoison (s : State) (gi : Nat) (k : AccK) : State :=
  if !k.reads || s.poison.isEmpty then s
  else s.settle gi fun _ t => match t.place with
    | .dev pa _ => s.poison.contains (pa / 128)
    | _ => false

/-- The accesses of lanes checked for alignment and resolved; a continuation makes them (spec 04 R98, 18 R326). -/
def access (x : Iss) (s : State) (k : AccK) (sp : Space) (n : Nat) (as : List (Nat × W64))
    (f : State → List (Nat × Place) → Eff) : Eff :=
  match misaligned as n with
  | some a => .trap s 0x03 0 a
  | none =>
    let r := (s.settlePoison x.gi k).resolveAll x.gi x.g k sp n as
    match r.2 with
    | .error e => e.eff r.1 x.g k
    | .ok ps => r.1.demand (devPlaces (ps.map Prod.snd) n) fun s => f s ps

/-- An operation's accesses and those that they come after. -/
def State.settleOp (s : State) (gi id : Nat) : State :=
  match s.groups[gi]? with
  | none => s
  | some g => match (g.op? id).bind Op.acc? with
    | none => s
    | some b => (s.settleOps gi (g.ops.takeWhile fun o => o.id != id) fun a u => b.todo.any (a.first u b)).performOp gi id

/-- Word j of the result of a lane: what it read, widened to a register or a pair (spec 10 R241, R243, R244, 09 R210). -/
def Acc.word (a : Acc) (i j : Nat) : W32 :=
  let v := tagOf a.got i
  match a.kind with
  | .load => wordOf (Iss.packResult a.ety false [v]) j
  | .atom _ => wordOf (BitVec.ofNat 64 v) j
  | _ => BitVec.ofNat 32 (v / 2 ^ (32 * j))

/-- The landings of an operation filled with what its accesses read. -/
def Acc.fill (a : Acc) (lands : List Land) : List Land :=
  ((List.range lands.length).zip lands).map fun (j, l) => match l with
    | .v k m vals tag => .v k m ((List.range vals.length).map fun i => a.word (a.uni.getD i) j) tag
    | .s k _ => .s k (a.word (a.uni.getD 0) j)
    | l => l

/-- A load, store or atomic complete: what it has still to perform is performed, then it lands (spec 10 R241, R248). -/
def State.completeMem (s : State) (gi id : Nat) : State :=
  let s1 := s.settleOp gi id
  match (s1.groups[gi]?).bind fun g => g.op? id with
  | none => s1
  | some o => match o.body with
    | .mem a => s1.finishOp gi id (a.fill o.lands) none
    | _ => s1

/-- The operation of a form that accesses memory by lanes. a, b: the operands of each. -/
def Iss.memOp (x : Iss) (cls : Cls) (kind : AccKind) (ps : List (Nat × Place)) (n words : Nat) (a b : Nat → Nat) : Op :=
  let l := x.landing words fun _ _ => 0
  let once := x.e.u || (match x.e.dst with
    | .s _ => true
    | _ => false)
  let todo := ps.map fun p => ({ lane := p.1, place := p.2, n := n, a := a p.1, b := b p.1 } : Access)
  x.op (some cls) (.mem { kind := kind, ety := x.e.ety, ord := x.e.order, scope := x.e.scope, uni := if once then some x.ul else none,
                          todo := todo, got := [], wrote := if kind = .store then devPlaces (ps.map Prod.snd) n else [] }) l.1 l.2

/-- Whether a place lies in a group's spill window (spec 02 R56). -/
def Group.spills (g : Group) (p : Place) (n : Nat) : Bool :=
  match p with
  | .stage _ odd _ _ => g.spwEn && odd = g.half && (byteIds [(p, n)]).any fun c =>
      g.spwBase.toNat * 1024 ≤ c.2.2 && c.2.2 < g.spwBase.toNat * 1024 + 1024
  | _ => false

/-- An operation of accesses issued. One that reaches the spill window, whose words later forms use as they issue, is performed at once
(spec 02 R56, 09 R229). -/
def State.addMem (s : State) (x : Iss) (o : Op) : State :=
  let s1 := s.addOp x.gi o
  match o.body with
  | .mem a => if a.todo.any fun t => x.g.spills t.place t.n then s1.settleOp x.gi x.g.opSeq else s1
  | _ => s1

/-- Whether an operation has no part but its landing. -/
def Op.isPlain (o : Op) : Bool :=
  match o.body with
  | .plain => true
  | _ => false

/-- An operation of a class, or a multi-cycle form, complete: accesses, or one that has but to land. A copy into its registers lands
before it (spec 10 R251). -/
def State.completePlain (s : State) (cls : Option Cls) (a : Input) : State :=
  match a with
  | .index2 gi id =>
    match s.opAt gi id with
    | some (_, o) =>
      if o.cls != cls || o.phase != .queued || !s.unguarded gi o.hold then s
      else if o.isPlain then s.finishOp gi id o.lands none
      else if o.acc?.isSome then s.completeMem gi id
      else s
    | none => s
  | _ => s

/-- LOAD_COMPLETION (spec 10 R241); input: group and operation. -/
def execLoadCompletion (s : State) : Host.Outcome State Fault Refusal := .next (s.completePlain (some .ld) s.input)

/-- STORE_COMPLETION (spec 10 R248). -/
def execStoreCompletion (s : State) : Host.Outcome State Fault Refusal := .next (s.completePlain (some .st) s.input)

/-- MULTI_CYCLE_FORM_COMPLETION (spec 08 R386, 09 R213). -/
def execMultiCycleFormCompletion (s : State) : Host.Outcome State Fault Refusal := .next (s.completePlain none s.input)

/-- An instruction's accesses with no more than the acquire part of its order. -/
def Acc.acquireOnly (a : Acc) : Acc := { a with ord := if [1, 3, 4].contains a.ord then 1 else 0 }

/-- The order that an access of an instruction has where it would be performed now: a compare-and-swap that would fail is a read, and
carries the acquire part alone (spec 10 R243, R244). -/
def State.asOrdered (s : State) (g : Group) (a : Acc) (t : Access) : Acc :=
  if (a.kind = .atom 7 || a.kind = .cas) && s.loadAt (s.here g t.place) t.n != t.a then a.acquireOnly else a

/-- An access of a group performed before its operation completes, where nothing orders another before it (spec 04 R124). -/
def State.performMove (s : State) (gi id lane : Nat) : State :=
  match s.accessOf gi id lane with
  | some (g, a, t) => if g.live && g.performable id (s.asOrdered g a t) t then s.perform gi id lane else s
  | none => s

end Sys2Proof.Machine
end

