-- ==== Sys2Proof/Machine/BigForms.lean ====
section
/-! DEFINITION. Big numbers in registers, and between registers and limb arrays in Stage (spec 09 R228 to R233). -/

namespace Sys2Proof.Machine

/-- The limbs of a vector register below its tag; limb W is its spill word (spec 03 R70). -/
def State.limbsOf (s : State) (g : Group) (k : Nat) : List W32 :=
  (List.range (g.tag k)).map fun i => if i < g.width then g.v k i else s.spillWord g k

/-- A number and its length (spec 09 R228). -/
abbrev Big := Int × Nat

/-- The number that a vector register holds. -/
def State.bigReg (s : State) (g : Group) (k : Nat) : Big := (bignum (s.limbsOf g k), g.tag k)

/-- The number that an operand of a big-number form holds (spec 09 R228). -/
def State.big (s : State) (x : Iss) (a : Src) : Big :=
  match a with
  | .v k => s.bigReg x.g k
  | a => let v := (x.word a x.ul).toInt
         (v, leastLen v)

/-- The register whose marker makes a big-number form trap: a limb below the tag of a vector operand is marked (spec 09 R228). -/
def Iss.bigMark (x : Iss) (as : List Src) : Option Nat :=
  as.findSome? fun a => match a with
    | .v k => if (List.range (min (x.g.tag k) x.g.width)).any fun i => x.g.marked k i then some k.val else none
    | _ => none

/-- Whether a result of length n does not fit (spec 09 R229). -/
def Group.tooLong (g : Group) (n : Nat) : Bool := g.width + 1 < n || (n = g.width + 1 && !g.spwEn)

/-- The limbs of a number in every lane. -/
def laneLimbs (v : Int) (w : Nat) : List W32 := (List.range w).map (limb v)

/-- A number of length n written into the qualifying lanes of a vector register, its limb W into its spill word (spec 09
R229). -/
def State.putBig (s : State) (x : Iss) (k : Nat) (v : Int) (n : Nat) : State :=
  let w := x.g.width
  let s1 := s.modGroup x.gi fun g => g.setV k x.qual (laneLimbs v w) 0 n
  if n = w + 1 then s1.setSpill x.g k (limb v w) else s1

/-- The landing of a number, for a form that completes later. -/
def Iss.landBig (x : Iss) (k : Nat) (v : Int) (n : Nat) : List Land :=
  let w := x.g.width
  .v k x.qual (laneLimbs v w) (BitVec.ofNat 8 n) :: (if n = w + 1 then [.spill k (limb v w)] else [])

/-- UNINIT for a marker in the operands, else the continuation. -/
def unmarked (x : Iss) (s : State) (as : List Src) (f : Eff) : Eff :=
  match x.bigMark as with
  | some r => .trap s 0x02 0 (BitVec.ofNat 64 r)
  | none => f

/-- The BIGLEN trap (spec 09 R229). -/
def bigLen (s : State) (n : Nat) : Eff := .trap s 0x05 0 (BitVec.ofNat 64 n)

/-- A big-number form with a vector destination: f gives value and length from the operands', of which there may be one only (spec 09 R230). -/
def bigEff (two : Bool) (f : Nat → Big → Big → Big) (x : Iss) (s : State) : Eff :=
  unmarked x s (if two then [x.e.sa, x.e.sb] else [x.e.sa]) <|
    let r := f x.g.width (s.big x x.e.sa) (s.big x x.e.sb)
    if x.g.tooLong r.2 then bigLen s r.2
    else
      match x.e.dst, x.e.nw with
      | .v k, false => .done (s.putBig x k r.1 r.2) .none
      | _, _ => .done s .none

/-- A result as long as its operands and no shorter than it needs (spec 09 R230). -/
def grown (n : Nat) (v : Int) : Big := (v, max n (leastLen v))

/-- The low part of a product, signed over w limbs (spec 09 R230). -/
def lowPart (w : Nat) (v : Int) : Int := sextN (wrapN v (32 * w)) (32 * w)

/-- A shift count or a number of limbs, read as n32. -/
def unsignedOf (b : Big) : Nat := wrapN b.1 32

/-- a times 2^n. A count beyond 8192 gives lengths that no width holds; the length then follows from the count (spec 09 R230). -/
def shiftLeft (a : Big) (n : Nat) : Big :=
  if n ≤ 8192 || a.1 = 0 then grown a.2 (a.1 * (2 ^ min n 8192 : Nat))
  else
    let b := a.1 * (2 ^ (n % 32) : Nat)
    (a.1, leastLen b + n / 32)

/-- a over 2^n rounded down; 8192 bits exceed every length (spec 09 R230). -/
def shiftDown (a : Int) (n : Nat) : Int := a / (2 ^ min n 8192 : Nat)

/-- BADD (spec 09 R230). -/
def execBadd (e : Enc) (s : State) : Host.Outcome State Fault Refusal := issue 0x90 0 e s (bigEff true fun _ a b => grown (max a.2 b.2) (a.1 + b.1))
/-- BSUB (spec 09 R230). -/
def execBsub (e : Enc) (s : State) : Host.Outcome State Fault Refusal := issue 0x91 0 e s (bigEff true fun _ a b => grown (max a.2 b.2) (a.1 - b.1))
/-- BNEG (spec 09 R230). -/
def execBneg (e : Enc) (s : State) : Host.Outcome State Fault Refusal := issue 0x92 0 e s (bigEff false fun _ a _ => grown a.2 (-a.1))
/-- BSHL (spec 09 R230). -/
def execBshl (e : Enc) (s : State) : Host.Outcome State Fault Refusal := issue 0x94 0 e s (bigEff true fun _ a b => shiftLeft a (unsignedOf b))
/-- BSHR (spec 09 R230). -/
def execBshr (e : Enc) (s : State) : Host.Outcome State Fault Refusal := issue 0x95 0 e s (bigEff true fun _ a b => (shiftDown a.1 (unsignedOf b), a.2))
/-- BMULL (spec 09 R230). -/
def execBmull (e : Enc) (s : State) : Host.Outcome State Fault Refusal := issue 0x96 0 e s (bigEff true fun w a b => (lowPart w (a.1 * b.1), w))
/-- BMULH (spec 09 R230). -/
def execBmulh (e : Enc) (s : State) : Host.Outcome State Fault Refusal := issue 0x97 0 e s (bigEff true fun w a b =>
  let v := (a.1 * b.1 - lowPart w (a.1 * b.1)) / (2 ^ (32 * w) : Nat)
  (v, leastLen v))
/-- BMULS (spec 09 R230). -/
def execBmuls (e : Enc) (s : State) : Host.Outcome State Fault Refusal := issue 0x98 0 e s (bigEff true fun _ a b => grown a.2 (a.1 * b.1))
/-- BNORM (spec 09 R230). -/
def execBnorm (e : Enc) (s : State) : Host.Outcome State Fault Refusal := issue 0x9B 0 e s (bigEff false fun _ a _ => (a.1, leastLen a.1))

/-- BCMP (spec 09 R231). -/
def bcmpEff (x : Iss) (s : State) : Eff :=
  unmarked x s [x.e.sa, x.e.sb] <|
    let d := (s.big x x.e.sa).1 - (s.big x x.e.sb).1
    pure1 (fun x _ => x.deliver false fun _ => BitVec.ofInt 64 d.sign) x s

/-- BCMP (spec 09 R231). -/
def execBcmp (e : Enc) (s : State) : Host.Outcome State Fault Refusal := issue 0x93 0 e s bcmpEff

/-- The tag of BLEN's operand, whose limbs it reads as every form does (spec 09 R231, R228). -/
def blenTagEff (x : Iss) (s : State) : Eff :=
  unmarked x s [x.e.sa] <|
    pure1 (fun x _ => x.deliver false fun _ => BitVec.ofNat 64 (s.big x x.e.sa).2) x s

/-- A number cut or extended to n limbs (spec 09 R231): no length beyond W + 1 is written, so none need be computed there. -/
def resized (w : Nat) (a : Big) (n : Nat) : Big := (if n ≤ w + 1 then sextN (wrapN a.1 (32 * n)) (32 * n) else a.1, n)

/-- BLEN with a scalar destination (spec 09 R231). -/
def execBlenTag (e : Enc) (s : State) : Host.Outcome State Fault Refusal := issue 0x9A 0 e s blenTagEff
/-- BLEN with a vector destination (spec 09 R231). -/
def execBlenResize (e : Enc) (s : State) : Host.Outcome State Fault Refusal := issue 0x9A 0 e s (bigEff true fun w a b => resized w a (unsignedOf b))

/-- BDIVQR (spec 09 R232): both results land when it completes. -/
def bdivqrEff (x : Iss) (s : State) : Eff :=
  unmarked x s [x.e.sa, x.e.sb] <|
    let a := s.big x x.e.sa
    let b := s.big x x.e.sb
    if b.1 = 0 then .trap s 0x06 0 0
    else if x.g.width < b.2 then bigLen s b.2
    else
      let q := truncDiv a.1 b.1
      let r := a.1 - b.1 * q
      let n := max a.2 (leastLen q)
      if x.g.tooLong n then bigLen s n
      else
        match x.e.dst, x.e.nw with
        | .v k, false =>
          .done (s.addOp x.gi (x.op none .plain (x.landBig k q n ++ x.landBig (k.val + 1) r b.2) (vRegs k 2))) .none
        | _, _ => .done (s.addOp x.gi (x.op none .plain)) .none

/-- BDIVQR (spec 09 R232). -/
def execBdivqr (e : Enc) (s : State) : Host.Outcome State Fault Refusal := issue 0x99 0 e s bdivqrEff

/-- The limb array that holds a vector register's number: header and limbs (spec 09 R233, 10 R242). -/
def State.regArray (s : State) (g : Group) (k : Nat) : LimbHdr × List W32 :=
  let ls := s.limbsOf g k
  (headerFor ls.length (g.width + 1) (leastLen (bignum ls) = ls.length) false, ls)

/-- Bytes over places, a number at each. -/
def splitOver : List (Place × Nat) → List Byte → List (Place × Nat × Nat)
  | [], _ => []
  | p :: ps, bs => (p.1, p.2, leNat (bs.take p.2)) :: splitOver ps (bs.drop p.2)

/-- A register as a limb array at an address: the pieces to be written, its limbs and then its header (spec 09 R233, 10 R242). -/
def storeBig (x : Iss) (s : State) (sp : Space) (a : W64) (k : Nat) (f : State → List (Place × Nat × Nat) → Eff) : Eff :=
  let v := s.regArray x.g k
  let r := s.placeRange x.gi x.g false .store sp (limbsAt a) (4 * v.2.length)
  match r.2.2 with
  | some e => e.eff r.1 x.g .store
  | none =>
    let h := r.1.resolve x.gi x.g false .store sp a 16
    match h.2 with
    | .error e => e.eff h.1 x.g .store
    | .ok p =>
      let ps := r.2.1 ++ [(p, 16)]
      h.1.demand (devRanges ps) fun s => f s (splitOver ps (bytesOf v.2 ++ v.1.bytes))

/-- A limb array read: a rejected header goes to bad, a number too long traps, and good gets its value and length (spec 09
R233, 10 R242). Earlier accesses of the group that come before it are performed (04 R118, R124). -/
def loadBig (x : Iss) (s : State) (sp : Space) (a : W64) (bad : State → Eff) (good : State → Int → Nat → Eff) : Eff :=
  let h := (s.settlePoison x.gi .load).placesAt x.gi x.g .load sp a 16
  match h.2 with
  | .error e => e.eff h.1 x.g .load
  | .ok ps => h.1.demand (devRanges ps) fun s =>
    let s1 := s.settleFor x.gi false ps
    let hd := hdrOf (s1.readPlaces ps)
    if hd.bad then bad s1
    else if x.g.tooLong hd.len.toNat then bigLen s1 hd.len.toNat
    else
      let r := s1.placeRange x.gi x.g false .load sp (limbsAt a) (4 * hd.len.toNat)
      match r.2.2 with
      | some e => e.eff r.1 x.g .load
      | none =>
        let s2 := (r.1.settleFor x.gi false r.2.1).charge 0 (devRanges r.2.1)
        good s2 (bignum (wordsOf (s2.readPlaces r.2.1))) hd.len.toNat

/-- MISALIGN for an address that is not a multiple of 16 (spec 04 R98), else the continuation. -/
def aligned16 (s : State) (a : W64) (f : Eff) : Eff := if a.toNat % 16 != 0 then .trap s 0x03 0 a else f

/-- BSPILL (spec 09 R233). -/
def bspillEff (x : Iss) (s : State) : Eff :=
  let a := (x.word x.e.sa x.ul).setWidth 64
  aligned16 s a <| match x.e.sb with
    | .v k => storeBig x s .s a k fun s ps =>
      let s1 := s.settleFor x.gi false (ps.map fun p => (p.1, p.2.1))
      .done (ps.foldl (fun s p => s.storeAt p.1 p.2.1 p.2.2) s1) .none
    | _ => .done s .none

/-- The scalar register that a field names with code 256 + S, written (spec 09 R233). -/
def State.setOut (s : State) (x : Iss) (a : Src) (w : W32) : State :=
  match a with
  | .s k => s.modGroup x.gi fun g => g.setS k w
  | _ => s

/-- Statuses of the big-number forms (spec 09 R234). -/
def stBadHdr : W32 := 0x01
def stOverCap : W32 := 0x02
def stBadRange : W32 := 0x03

/-- BFILL (spec 09 R233). -/
def bfillEff (x : Iss) (s : State) : Eff :=
  let a := (x.word x.e.sa x.ul).setWidth 64
  aligned16 s a <| loadBig x s .s a (fun s => .done (s.setOut x x.e.sb stBadHdr) .none) fun s v n =>
    match x.e.dst, x.e.nw with
    | .v k, false => .done ((s.putBig x k v n).setOut x x.e.sb 0) .none
    | _, _ => .done (s.setOut x x.e.sb 0) .none

/-- BSPILL (spec 09 R233). -/
def execBspill (e : Enc) (s : State) : Host.Outcome State Fault Refusal := issue 0x9C 0 e s bspillEff
/-- BFILL (spec 09 R233). -/
def execBfill (e : Enc) (s : State) : Host.Outcome State Fault Refusal := issue 0x9D 0 e s bfillEff

end Sys2Proof.Machine
end

