-- ==== Sys2Proof/Machine/MemForms.lean ====
section
/-! DEFINITION. Loads, stores, prefetch, cache maintenance and counter waits (spec 10 R239 to R248). -/

namespace Sys2Proof.Machine

/-- The space of a class M form. -/
def Iss.sp (x : Iss) : Space := spaceOf x.e.space

/-- Bytes of an access of the form's element type. -/
def Iss.esize (x : Iss) : Nat := tyBits x.e.ety / 8

/-- Where the addresses of a load from K lie, or the fault of the first that faults in lane order (spec 04 R98, R100). -/
def State.constPlaces (s : State) (gi : Nat) (g : Group) (n : Nat) : List (Nat × W64) → State × Except Flt (List (Nat × List (Place × Nat)))
  | [] => (s, .ok [])
  | a :: as =>
    let r := s.placesAt gi g .load .k a.2 n
    match r.2 with
    | .error f => (r.1, .error f)
    | .ok ps =>
      let q := State.constPlaces r.1 gi g n as
      (q.1, q.2.map ((a.1, ps) :: ·))

/-- A load from K: every address is checked and resolved, word by word, and read as the instruction issues, which no ordering forbids (spec
04 R100, R131; log 10); the values land when the load completes. -/
def constEff (x : Iss) (s : State) : Eff :=
  match misaligned x.addrs x.esize with
  | some a => .trap s 0x03 0 a
  | none =>
    let r := s.constPlaces x.gi x.g x.esize x.addrs
    match r.2 with
    | .error f => f.eff r.1 x.g .load
    | .ok ps => r.1.demand (devRanges (ps.flatMap Prod.snd)) fun s =>
      let s1 := ps.foldl (fun s p => p.2.foldl (fun s q => s.touchPlace x.gi x.g.core q.1) s) s
      let val (i : Nat) : Nat := ((ps.find? fun p => p.1 = i).map fun p => leNat (s1.readPlaces p.2)).getD 0
      let l := x.landing (if tyBits x.e.ety = 64 then 2 else 1) fun i j => wordOf (Iss.packResult x.e.ety false [val i]) j
      .done (s1.addOp x.gi (x.op (some .ld) .plain l.1 l.2)) .none

/-- LD and LDU: every address is checked and resolved; the values are read later, and land when the load completes (spec 10 R241). -/
def loadEff (x : Iss) (s : State) : Eff :=
  if x.sp = .k then constEff x s
  else access x s .load x.sp x.esize x.addrs fun s ps =>
    let s1 := ps.foldl (fun s p => s.touchPlace x.gi x.g.core p.2) s
    .done (s1.addMem x (x.memOp .ld .load ps x.esize (if tyBits x.e.ety = 64 then 2 else 1) (fun _ => 0) fun _ => 0)) .none

/-- LD (spec 10 R241). -/
def execLd (e : Enc) (s : State) : Host.Outcome State Fault Refusal := issue 0xA4 0 e s loadEff
/-- LDU (spec 10 R241). -/
def execLdu (e : Enc) (s : State) : Host.Outcome State Fault Refusal := issue 0xA5 0 e s loadEff

/-- The value that a lane stores: the low bytes of its data register (spec 10 R241). -/
def Iss.dataOf (x : Iss) (i : Nat) : Nat :=
  match x.e.dst with
  | .v k => (x.g.v (k.val + 1) i ++ x.g.v k i).toNat
  | .s k => (x.g.s2 k).toNat
  | _ => 0

/-- ST: every address is checked and resolved, and the lanes write later, in their order on one location (spec 10 R241, 04 R122). -/
def storeEff (x : Iss) (s : State) : Eff :=
  access x s .store x.sp x.esize x.addrs fun s ps =>
    .done (s.addMem x (x.memOp .st .store ps x.esize 0 x.dataOf fun _ => 0)) .none

/-- ST (spec 10 R241). -/
def execSt (e : Enc) (s : State) : Host.Outcome State Fault Refusal := issue 0xA6 0 e s storeEff

/-- The address of LDB and STB: the offset is read on the lane of R17 (spec 10 R242; log 24). -/
def Iss.arrayAddr (x : Iss) : W64 :=
  let off := x.word x.e.sb x.ul
  if x.e.space = 0 then x.pair x.e.sa x.ul + off.signExtend 64 else (x.word x.e.sa x.ul + off).setWidth 64

/-- LDB: a rejected header is a memory fault; the number lands when the load completes (spec 10 R242). -/
def ldbEff (x : Iss) (s : State) : Eff :=
  aligned16 s x.arrayAddr <|
    loadBig x s x.sp x.arrayAddr (fun s => .trap s 0x04 0x06 x.arrayAddr) fun s v n =>
      match x.e.dst, x.e.nw with
      | .v k, false => .done (s.addOp x.gi (x.op (some .ld) .plain (x.landBig k v n) (vRegs k 1))) .none
      | _, _ => .done (s.addOp x.gi (x.op (some .ld) .plain)) .none

/-- STB: limbs and header are written later, in turn (spec 10 R242). -/
def stbEff (x : Iss) (s : State) : Eff :=
  aligned16 s x.arrayAddr <| match x.e.dst with
    | .v k => storeBig x s x.sp x.arrayAddr k fun s ps =>
      let todo := ((List.range ps.length).zip ps).map fun p =>
        ({ lane := p.1, place := p.2.1, n := p.2.2.1, a := p.2.2.2, b := 0 } : Access)
      .done (s.addMem x (x.op (some .st) (.mem { kind := .array, ety := x.e.ety, ord := x.e.order, scope := x.e.scope, uni := none,
                                                 todo := todo, got := [],
                                                 wrote := devRanges (ps.map fun p => (p.1, p.2.1)) }))) .none
    | _ => .done s .none

/-- LDB (spec 10 R242). -/
def execLdb (e : Enc) (s : State) : Host.Outcome State Fault Refusal := issue 0xA7 0 e s ldbEff
/-- STB (spec 10 R242). -/
def execStb (e : Enc) (s : State) : Host.Outcome State Fault Refusal := issue 0xA8 0 e s stbEff

/-- Where the addresses of a PREF lie: one that would fault is dropped, one that waits holds the instruction (spec 10 R246). -/
def State.prefPlaces (s : State) (x : Iss) : List (Nat × W64) → State × Except Flt (List Place)
  | [] => (s, .ok [])
  | a :: as =>
    let r := s.resolve x.gi x.g false .load x.sp a.2 1
    match r.2 with
    | .error (.wait reason budgets) => (r.1, .error (.wait reason budgets))
    | .error _ => State.prefPlaces r.1 x as
    | .ok p =>
      let q := State.prefPlaces r.1 x as
      (q.1, q.2.map (p :: ·))

/-- PREF: each line that resolves comes into L1, and any other is dropped; it waits for a walker, and while a budget holds a walk or a
line (spec 10 R246, 18 R326, 19 R334). -/
def prefEff (x : Iss) (s : State) : Eff :=
  let r := s.prefPlaces x x.addrs
  match r.2 with
  | .error f => f.eff r.1 x.g .load
  | .ok ps => r.1.demand (devRanges (ps.map fun p => (p, 128))) fun s =>
      .done ((ps.foldl (fun s p => s.touchPlace x.gi x.g.core p) s).addOp x.gi (x.op (some .ld) .plain)) .none

/-- PREF (spec 10 R246). -/
def execPref (e : Enc) (s : State) : Host.Outcome State Fault Refusal := issue 0xAD 0 e s prefEff

/-- The line of a place (spec 00 R4). -/
def Place.line (p : Place) : Place :=
  match p with
  | .dev pa key => .dev (pa / 128 * 128) key
  | .host pa => .host (pa / 128 * 128)
  | p => p

/-- Cache maintenance of the line of each address; it faults as a store would (spec 10 R247). -/
def cacheEff (kind : AccKind) (x : Iss) (s : State) : Eff :=
  access x s .store .g 1 x.addrs fun s ps =>
    .done (s.addMem x (x.memOp .st kind (ps.map fun p => (p.1, p.2.line)) 128 0 (fun _ => 0) fun _ => 0)) .none

/-- CFLUSH (spec 10 R247). -/
def execCflush (e : Enc) (s : State) : Host.Outcome State Fault Refusal := issue 0xAE 0 e s (cacheEff .clean)
/-- CINV (spec 10 R247). -/
def execCinv (e : Enc) (s : State) : Host.Outcome State Fault Refusal := issue 0xAF 0 e s (cacheEff .inval)

/-- WAITC issues once the counters it names are low enough, and then only advances (spec 10 R245, 04 R128). -/
def execWaitc (e : Enc) (s : State) : Host.Outcome State Fault Refusal := issue 0xAC 0 e s fun _ s => .done s .none

/-- WAITC.all.sc issues once every counter stands at 0: every access of the group is then performed (spec 04 R129). -/
def execWaitcScFence (e : Enc) (s : State) : Host.Outcome State Fault Refusal := issue 0xAC 0 e s fun _ s => .done s .none

end Sys2Proof.Machine
end

