-- ==== Sys2Proof/Machine/AtomForms.lean ====
section
/-! DEFINITION. Atomics: ATOM, ATOMC and RED (spec 10 R243, R244, 04 R133). -/

namespace Sys2Proof.Machine

/-- The operands of an atomic form in a lane: its value, and the third operand (spec 10 R243). -/
def Iss.operand (x : Iss) (a : Src) (i : Nat) : Nat := x.elem a x.e.ety 0 false i 0

/-- ATOM: every address is checked and resolved; each lane's step is made later, and the values land when it completes (spec 10
R243). -/
def atomEff (x : Iss) (s : State) : Eff :=
  access x s .atomic x.sp x.esize x.addrs fun s ps =>
    .done (s.addMem x (x.memOp .ld (.atom x.sub) ps x.esize (if tyBits x.e.ety = 64 then 2 else 1) (x.operand x.e.sc)
      (x.operand x.e.sd))) .none

/-- ATOM.add (spec 10 R243). -/
def execAtomAdd (e : Enc) (s : State) : Host.Outcome State Fault Refusal := issue 0xA9 0 e s atomEff
/-- ATOM.and (spec 10 R243). -/
def execAtomAnd (e : Enc) (s : State) : Host.Outcome State Fault Refusal := issue 0xA9 1 e s atomEff
/-- ATOM.or (spec 10 R243). -/
def execAtomOr (e : Enc) (s : State) : Host.Outcome State Fault Refusal := issue 0xA9 2 e s atomEff
/-- ATOM.xor (spec 10 R243). -/
def execAtomXor (e : Enc) (s : State) : Host.Outcome State Fault Refusal := issue 0xA9 3 e s atomEff
/-- ATOM.min (spec 10 R243). -/
def execAtomMin (e : Enc) (s : State) : Host.Outcome State Fault Refusal := issue 0xA9 4 e s atomEff
/-- ATOM.max (spec 10 R243). -/
def execAtomMax (e : Enc) (s : State) : Host.Outcome State Fault Refusal := issue 0xA9 5 e s atomEff
/-- ATOM.exch (spec 10 R243). -/
def execAtomExch (e : Enc) (s : State) : Host.Outcome State Fault Refusal := issue 0xA9 6 e s atomEff
/-- ATOM.cas (spec 10 R243). -/
def execAtomCas (e : Enc) (s : State) : Host.Outcome State Fault Refusal := issue 0xA9 7 e s atomEff

/-- RED: as ATOM, without a value returned (spec 10 R243, 04 R133). -/
def redEff (x : Iss) (s : State) : Eff :=
  access x s .atomic x.sp x.esize x.addrs fun s ps =>
    .done (s.addMem x (x.memOp .st (.red x.sub) ps x.esize 0 (x.operand x.e.sc) fun _ => 0)) .none

/-- RED.add (spec 10 R243). -/
def execRedAdd (e : Enc) (s : State) : Host.Outcome State Fault Refusal := issue 0xAB 0 e s redEff
/-- RED.and (spec 10 R243). -/
def execRedAnd (e : Enc) (s : State) : Host.Outcome State Fault Refusal := issue 0xAB 1 e s redEff
/-- RED.or (spec 10 R243). -/
def execRedOr (e : Enc) (s : State) : Host.Outcome State Fault Refusal := issue 0xAB 2 e s redEff
/-- RED.xor (spec 10 R243). -/
def execRedXor (e : Enc) (s : State) : Host.Outcome State Fault Refusal := issue 0xAB 3 e s redEff
/-- RED.min (spec 10 R243). -/
def execRedMin (e : Enc) (s : State) : Host.Outcome State Fault Refusal := issue 0xAB 4 e s redEff
/-- RED.max (spec 10 R243). -/
def execRedMax (e : Enc) (s : State) : Host.Outcome State Fault Refusal := issue 0xAB 5 e s redEff

/-- The 128 bits of a quad operand in a lane. -/
def Iss.quadVal (x : Iss) (a : Src) (i : Nat) : Nat :=
  ((List.range 4).map fun j => (x.quad a i j).toNat * 2 ^ (32 * j)).sum

/-- ATOMC and ATOM.XADD (spec 10 R244). -/
def cellEff (x : Iss) (s : State) : Eff :=
  access x s .atomic x.sp 16 x.addrs fun s ps =>
    .done (s.addMem x (x.memOp .ld (if x.sub = 1 then .xadd else .cas) ps 16 4 (x.quadVal x.e.sc) (x.quadVal x.e.sd))) .none

/-- ATOMC.cas (spec 10 R244). -/
def execAtomcCas (e : Enc) (s : State) : Host.Outcome State Fault Refusal := issue 0xAA 0 e s cellEff
/-- ATOM.XADD (spec 10 R244). -/
def execAtomXadd (e : Enc) (s : State) : Host.Outcome State Fault Refusal := issue 0xAA 1 e s cellEff

end Sys2Proof.Machine
end

