-- ==== Sys2Proof/Machine/CopyForms.lean ====
section
/-! DEFINITION. The copy engines: XCOPY, XREG, XGATH, XCHAIN and BOOMLD (spec 10 R249 to R253, 11 R267). -/

namespace Sys2Proof.Machine

/-- The address that an address operand holds in a space (spec 10 R250). -/
def Iss.addrIn (x : Iss) (sp : Space) (a : Src) : W64 :=
  if sp = .g then x.pair a x.ul else (x.word a x.ul).setWidth 64

/-- A 32-bit operand of the lane of R17, as a number. -/
def Iss.num (x : Iss) (a : Src) : Nat := (x.word a x.ul).toNat

/-- An operation that has nothing to do completes at once (spec 10 R250). -/
def State.addNothing (s : State) (x : Iss) (cls : Cls) : State :=
  (s.addOp x.gi (x.op (some cls) .plain (phase := .done))).modGroup x.gi fun g => g.retire s.cycle

/-- MISALIGN for the first address that is not a multiple of n, else the continuation (spec 04 R98, 10 R249 item 1). -/
def alignedAll (s : State) (n : Nat) (as : List W64) (f : Eff) : Eff :=
  match as.find? fun a => a.toNat % n != 0 with
  | some a => .trap s 0x03 0 a
  | none => f

/-- XCOPY (spec 10 R250). -/
def xcopyEff (x : Iss) (s : State) : Eff :=
  let dsp := spaceOf (x.e.ctlF 127 125)
  let ssp := spaceOf (x.e.ctlF 124 122)
  let d := x.addrIn dsp x.e.sa
  let a := x.addrIn ssp x.e.sb
  let n := x.num x.e.sc
  alignedAll s 4 [d, a] <|
    if n = 0 then .done (s.addNothing x .xc) .none
    else .done (s.addOp x.gi (x.op (some .xc) (.copy dsp ssp d a n))) .none

/-- XCOPY. -/
def execXcopy (e : Enc) (s : State) : Host.Outcome State Fault Refusal := issue 0xB0 0 e s xcopyEff

/-- The words of a run of vector registers in every lane, register after register (spec 10 R251). -/
def Group.regWords (g : Group) (k n : Nat) : List W32 :=
  (List.range n).flatMap fun j => (List.range g.width).map fun i => g.v (k + j) i

/-- XREG (spec 10 R251). A copy for a group that has exited, or that a reset of its core has taken away, moves nothing. -/
def xregEff (x : Iss) (s : State) : Eff :=
  let sp := spaceOf (x.e.ctlF 118 116)
  let a := x.addrIn sp x.e.sa
  let k := x.e.ctlF 127 120
  let n := x.e.ctlF 115 108 + 1
  alignedAll s 4 [a] <|
    match s.mate x.gi x.g (x.word x.e.sb x.ul) with
    | none => .done (s.addNothing x .xc) .none
    | some t =>
      match s.groups[t]? with
      | none => .done s .none
      | some h =>
        if h.gone then .done (s.addNothing x .xc) .none
        else if x.e.ctlF 119 119 = 1 then .done (s.addOp x.gi (x.op (some .xc) (.regOut sp a (h.regWords k n)))) .none
        else .done (s.addOp x.gi (x.op (some .xc) (.regIn sp a t k n))) .none

/-- XREG. -/
def execXreg (e : Enc) (s : State) : Host.Outcome State Fault Refusal := issue 0xB3 0 e s xregEff

/-- XGATH (spec 10 R252). -/
def xgathEff (x : Iss) (s : State) : Eff :=
  let dsc := x.e.ctlF 127 127 = 1
  let a := x.addrIn (if dsc then .s else .g) x.e.sa
  alignedAll s 64 [a] <|
    .done (s.addOp x.gi (x.op (some .xc)
      (.gather a dsc (x.e.ctlF 126 126 = 1) (x.e.ctlF 125 125 = 1) (x.num x.e.sb) (x.num x.e.sc)))) .none

/-- XGATH. -/
def execXgath (e : Enc) (s : State) : Host.Outcome State Fault Refusal := issue 0xB1 0 e s xgathEff

/-- XCHAIN (spec 10 R253). -/
def xchainEff (x : Iss) (s : State) : Eff :=
  let a := x.addrIn .g x.e.sa
  alignedAll s 64 [a] <| .done (s.addOp x.gi (x.op (some .xc) (.walk a 0))) .none

/-- XCHAIN. -/
def execXchain (e : Enc) (s : State) : Host.Outcome State Fault Refusal := issue 0xB2 0 e s xchainEff

/-- A copy of n bytes; destination bytes that are also source bytes are unspecified (spec 10 R249 item 8). -/
def Eng.copy (e : Eng) (dsp : Space) (d : W64) (ssp : Space) (a : W64) (n : Nat) : Except Stop Eng :=
  match e.read ssp a n with
  | .error x => .error { x with 1 := { x.1 with wrote := x.1.wrote ++ [(dsp, d, n)] } }
  | .ok (e1, bs) =>
    let src := byteIds (e1.s.placeRange e1.gi e1.g true .engRead ssp a n).2.1
    let dst := byteIds (e1.s.placeRange e1.gi e1.g true .engWrite dsp d n).2.1
    if dst.any fun b => src.contains b then
      let free := e1.s.freeBytes n
      let bs1 := (List.range n).map fun i =>
        if src.contains ((dst[i]?).getD (4, 0, 0)) then (free.1[i]?).getD 0 else (bs[i]?).getD 0
      ({ e1 with s := free.2 } : Eng).write dsp d bs1
    else e1.write dsp d bs

/-- The landing of a run of registers, register after register, in every lane (spec 10 R251). -/
def regLands (k w : Nat) (ws : List W32) : List Land :=
  (List.range (ws.length / w)).map fun j => .v (k + j) (allLanes w) ((ws.drop (j * w)).take w) (BitVec.ofNat 8 w)

/-- An engine's write of a status word, then its end. -/
def Eng.report (e : Eng) (sp : Space) (a : W64) (ws : List W32) : Except Stop Eng := e.write sp a (bytesOf ws)

/-- The bytes of a range that a group's engine reaches. -/
def State.rangeIds (s : State) (gi : Nat) (g : Group) (k : AccK) (sp : Space) (a : W64) (n : Nat) : List (Nat × Nat × Nat) :=
  byteIds (s.placeRange gi g true k sp a n).2.1

/-- Which bytes ranges are. -/
def Eng.ids (e : Eng) (k : AccK) (rs : List Rng) : List (Nat × Nat × Nat) :=
  rs.flatMap fun r => e.s.rangeIds e.gi e.g k r.1 r.2.1 r.2.2

/-- Destination bytes that are also bytes of a source made unspecified (spec 10 R249 item 8; log 3). -/
def Eng.blur (e : Eng) (srcs dsts : List Rng) : Eng :=
  let src := e.ids .engRead srcs
  dsts.foldl (fun e d =>
    let ps := (e.s.placeRange e.gi e.g true .engWrite d.1 d.2.1 d.2.2).2.1
    let ids := byteIds ps
    if ids.any src.contains then
      let free := e.s.freeBytes ids.length
      let old := e.s.readPlaces ps
      let bs := (List.range ids.length).map fun i =>
        if src.contains ((ids[i]?).getD (4, 0, 0)) then (free.1[i]?).getD 0 else (old[i]?).getD 0
      { e with s := free.2.writePlaces ps bs }
    else e) e

/-- An engine's walk with the ranges that it has read as sources: destination bytes among them are unspecified, whichever came first
(spec 10 R249 item 8; log 3). -/
abbrev Walker := Eng × List Rng

/-- A source range read. -/
def Walker.take (w : Walker) (sp : Space) (a : W64) (n : Nat) : Except Stop (Walker × List Byte) :=
  (((w.1.blur [(sp, a, n)] w.1.wrote).read sp a n)).map fun r => ((r.1, (sp, a, n) :: w.2), r.2)

/-- A destination range written. -/
def Walker.give (w : Walker) (sp : Space) (a : W64) (bs : List Byte) : Except Stop Walker :=
  (w.1.write sp a bs).map fun e => (e.blur w.2 [(sp, a, bs.length)], w.2)

/-- One row of XGATH's walk: elements lo to lo + n - 1 copied from index k on, until the outputs are full (spec 10 R252). -/
def Walker.row (e : Walker) (isp osp : Space) (col val idx out : W64) (vs cap : Nat) : Nat → Nat → Nat → Except Stop (Walker × Nat × Bool)
  | 0, _, k => .ok (e, k, false)
  | n + 1, i, k =>
    if k = cap then .ok (e, k, true)
    else do
      let c ← e.take isp (col + BitVec.ofNat 64 (4 * i)) 4
      let v ← c.1.take isp (val + BitVec.ofNat 64 (vs * i)) vs
      let e1 ← v.1.give osp (idx + BitVec.ofNat 64 (4 * k)) c.2
      let e2 ← e1.give osp (out + BitVec.ofNat 64 (vs * k)) v.2
      Walker.row e2 isp osp col val idx out vs cap n (i + 1) (k + 1)

/-- The rows of XGATH's walk: the engine, the elements written and the status (spec 10 R252). -/
def Walker.rows (e : Walker) (isp osp : Space) (row col val idx out : W64) (vs cap : Nat) :
    Nat → Nat → Nat → Except Stop (Walker × Nat × W32)
  | 0, _, k => .ok (e, k, 0)
  | n + 1, r, k => do
    let a ← e.take isp (row + BitVec.ofNat 64 (4 * r)) 4
    let b ← a.1.take isp (row + BitVec.ofNat 64 (4 * (r + 1))) 4
    let lo := leNat a.2
    let hi := leNat b.2
    if hi < lo then .ok (b.1, k, stBadRange)
    else
      let q ← b.1.row isp osp col val idx out vs cap (hi - lo) lo k
      if q.2.2 then .ok (q.1, q.2.1, stOverCap) else Walker.rows q.1 isp osp row col val idx out vs cap n (r + 1) q.2.1

/-- Word pair i of a descriptor. -/
def dwordAt (bs : List Byte) (i : Nat) : W64 := BitVec.ofNat 64 (leNat ((bs.drop (8 * i)).take 8))

/-- XGATH (spec 10 R252). An array whose address is no multiple of its element size is walked as it lies: the rule asks for none (log
65). -/
def Eng.gather (e : Eng) (desc : W64) (dsc isp osp : Bool) (start count : Nat) : Except Stop (Eng × List Land) := do
  let sp (b : Bool) : Space := if b then .s else .g
  let r ← e.read (sp dsc) desc 64
  let bs := r.2
  let row := dwordAt bs 0
  let col := dwordAt bs 1
  let val := dwordAt bs 2
  let idx := dwordAt bs 3
  let out := dwordAt bs 4
  let vs := (wordAt bs 11).toNat
  let high (b : Bool) (a : W64) : Bool := b && a.extractLsb' 32 32 != 0
  let bad := (vs != 4 && vs != 8) || wordAt bs 10 != 0 || wordAt bs 15 != 0
    || high isp row || high isp col || high isp val || high osp idx || high osp out
  let w : Walker := (r.1, [(sp dsc, desc, 64)])
  let q ← if bad then .ok (w, 0, stBadRange)
    else w.rows (sp isp) (sp osp) row col val idx out vs (wordAt bs 12).toNat count start 0
  let e1 ← q.1.1.report (sp dsc) (desc + 52) [BitVec.ofNat 32 q.2.1, q.2.2]
  .ok (e1, [])

/-- Whether a record of XCHAIN is invalid (spec 10 R253; log 25): its reserved fields, its spaces, a count or an address that is no
multiple of 4, an address that its space cannot hold. -/
def recordBad (bs : List Byte) : Bool :=
  let ctrl := wordAt bs 5
  let ssp := (ctrl.extractLsb' 1 3).toNat
  let dsp := (ctrl.extractLsb' 4 3).toNat
  let high (sp : Nat) (a : W64) : Bool := a.toNat % 4 != 0 || (sp != 0 && a.extractLsb' 32 32 != 0)
  ctrl.extractLsb' 7 25 != 0 || 3 < ssp || 3 < dsp || dsp = 2 || dwordAt bs 7 != 0 || (wordAt bs 7).toNat % 4 != 0
  || high ssp (dwordAt bs 4) || high dsp (dwordAt bs 5)

/-- STATUS and CTRL of a record written: OWN cleared where own is false. -/
def Eng.mark (e : Eng) (a : W64) (ctrl : W32) (own : Bool) (st : W32) : Except Stop Eng :=
  e.report .g (a + 20) [if own then ctrl else ctrl &&& 0xFFFFFFFE, st]

/-- STATUS of a record whose copy faulted (spec 10 R253, R256). -/
def stFaultRec : W32 := 0x12

/-- The fault with which a record's copy ends the walk; none for a page that is not present, unless the driver has answered it
with FAIL (spec 10 R249 item 5, 19 R336). -/
def Flt.ends (fail : Option W64) (f : Flt) : Option Flt :=
  match f, fail with
  | .absent _ _, none => none
  | .absent _ _, some va => some (.mem 0x01 va)
  | f, _ => some f

/-- Records that a walk of XCHAIN takes at most (spec 10 R253). -/
def maxHops : Nat := 65536

/-- XCHAIN's walk over at most n more records (spec 10 R253). A record is read where NEXT says, aligned or not (log 65). What earlier
records did stands where one meets a page that is not present, and where a budget holds the next (18 R326; log 42). fail: the address of a
fault record answered with FAIL. -/
def Eng.walk (fail : Option W64) (e : Eng) : Nat → W64 → Except Stop (Eng × List Land)
  | 0, _ => .ok (e, [])
  | n + 1, a =>
    if a = 0 then .ok (e, [])
    else do
      let r ← (e.mayStop (.walk a (maxHops - (n + 1)))).read .g a 64
      let ctrl := wordAt r.2 5
      if !ctrl.getLsbD 0 then .ok (r.1, [])
      else if recordBad r.2 then
        let e1 ← r.1.mark a ctrl false stBadRange
        .ok (e1, [])
      else
        match r.1.copy (spaceOf (ctrl.extractLsb' 4 3).toNat) (dwordAt r.2 5) (spaceOf (ctrl.extractLsb' 1 3).toNat)
            (dwordAt r.2 4) (wordAt r.2 7).toNat with
        | .error (e1, f, k) =>
          match f.ends fail with
          | none => .error (e1, f, k)
          | some f =>
            let stands (e2 : Eng) : Eng := { e2 with wrote := [], past := e2.past ++ e1.wrote ++ e2.wrote }
            match ({ e1 with s := e1.spoil, wrote := [], kept := none } : Eng).mark a ctrl true stFaultRec with
            | .ok e2 => .error (stands e2, f, k)
            | .error (e2, _, _) => .error (stands e2, f, k)
        | .ok e1 =>
          let e2 ← e1.mark a ctrl false 0
          let e3 ← e2.goOn
          Eng.walk fail { e3 with wrote := [], past := e3.past ++ e3.wrote } n (dwordAt r.2 6)

/-- BOOMLD (spec 11 R267). -/
def boomldEff (x : Iss) (s : State) : Eff :=
  let ssp : Space := if x.e.ctlF 127 127 = 1 then .s else .g
  let b := x.word x.e.sa x.ul
  let a := x.addrIn ssp x.e.sb
  let n := x.num x.e.sc
  alignedAll s 4 [b.setWidth 64, a] <|
    if n = 0 then .done (s.addNothing x .xc) .none else .done (s.addOp x.gi (x.op (some .xc) (.boomld b ssp a n))) .none

/-- BOOMLD. -/
def execBoomld (e : Enc) (s : State) : Host.Outcome State Fault Refusal := issue 0xC5 0 e s boomldEff

/-- A copy made line by line, so that it stops where a budget holds its class (spec 18 R326). body: what is left to do from a destination
and a source address on; n, at most 128 k: the bytes of it. -/
def Eng.pieces (body : W64 → W64 → Nat → OpBody) (e : Eng) (dsp : Space) (d : W64) (ssp : Space) (a : W64) : Nat → Nat → Except Stop Eng
  | 0, _ => .ok e
  | k + 1, n =>
    if n = 0 then .ok e
    else do
      let m := min 128 n
      let e1 ← (e.mayStop (body d a n)).copy dsp d ssp a m
      let e2 ← e1.goOn
      Eng.pieces body e2 dsp (d + BitVec.ofNat 64 m) ssp (a + BitVec.ofNat 64 m) k (n - m)

/-- A copy whole; where budgets are set, line by line, unless its ranges overlap (spec 18 R326; log 42). -/
def Eng.copyAll (body : W64 → W64 → Nat → OpBody) (e : Eng) (dsp : Space) (d : W64) (ssp : Space) (a : W64) (n : Nat) : Except Stop Eng :=
  if e.s.capped && !(e.ids .engWrite [(dsp, d, n)]).any (e.ids .engRead [(ssp, a, n)]).contains then
    e.pieces body dsp d ssp a (n / 128 + 1) n
  else e.copy dsp d ssp a n

/-- What a copy operation does when it completes. fail: as for a walk. -/
def copyRun (fail : Option W64) (s : State) (gi : Nat) (g : Group) (o : Op) : Option Run :=
  let e := Eng.resume s gi g o false
  match o.body with
  | .copy dsp ssp d a n => some (runOf ((e.copyAll (fun d a n => .copy dsp ssp d a n) dsp d ssp a n).map fun e => (e, [])))
  | .regOut sp a ws => some (runOf ((e.write sp a (bytesOf ws)).map fun e => (e, [])))
  | .gather d dsc isp osp st n => some (runOf (e.gather d dsc isp osp st n))
  | .walk a hops => some (runOf ((Eng.resume s gi g o true).walk fail (maxHops - hops) a))
  | .boomld boff ssp a n => some (runOf ((({ e with cls := 2 } : Eng).copyAll (fun d a n => .boomld (d.setWidth 32) ssp a n) .b
      (boff.setWidth 64) ssp a n).map fun e => (e, [])))
  | _ => none

/-- XREG into registers of a group: they land in it, unless it has exited (spec 10 R251). -/
def State.landRegs (s : State) (gi t : Nat) (g : Group) (o : Op) (sp : Space) (a : W64) (k n : Nat) : State :=
  match s.groups[t]? with
  | none => s.finishOp gi o.id [] none
  | some h =>
    if h.gone then s.finishOp gi o.id [] none
    else
      match runOf (((Eng.start s gi g o).read sp a (4 * h.width * n)).map fun r => (r.1, regLands k h.width (wordsOf r.2))) with
      | .ok s1 _ lands => if s.heldBack s1 then s.pay s1 gi o.id else (s1.modGroup t fun h => lands.foldl Group.land h).finishOp gi o.id [] none
      | r => r.finish s gi o.id []

/-- A field of the control word, by instruction bits (spec 06 R171). -/
def MxArgs.f (a : MxArgs) (hi lo : Nat) : Nat := (a.ctl.extractLsb' (lo - 74) (hi - lo + 1)).toNat

/-- MODE. -/
def MxArgs.mode (a : MxArgs) : Nat := a.f 111 109
/-- Bytes of a row of A and of a column of B (spec 11 R260). -/
def MxArgs.rb (a : MxArgs) : Nat := if a.mode = 3 then 16 else 32
/-- The operations of a group before one of them. -/
def Group.before (g : Group) (id : Nat) : List Op := g.ops.takeWhile fun o => o.id != id

/-- The Stage ranges that an operation on the matrix engine has still to read in its own group's addresses: A in operand banks and the
scale block, the factors of a schoolbook BMUL (spec 11 R260, R269). -/
def Op.ownReads (o : Op) : List (W64 × Nat) :=
  let of (a : MxArgs) : List (W64 × Nat) :=
    (if a.f 94 94 = 1 then [(a.aAddr.setWidth 64, 128 * a.rb)] else []) ++ (if a.f 95 95 = 1 then [(a.scAddr.setWidth 64, 256)] else [])
  match o.body with
  | .mxmac a => if o.phase = .queued then of a else []
  | .mxpair a _ => if o.phase = .queued then of a else []
  | .bmul _ a b _ asp bsp _ ah bh _ _ school =>
    if school && o.phase != .done then
      (if asp = .s then [(a, 16 + 4 * ah.len.toNat)] else []) ++ (if bsp = .s then [(b, 16 + 4 * bh.len.toNat)] else [])
    else []
  | _ => []

/-- The MXPAIR at a place of a core's queue, counted among the MXPAIRs of a team there. -/
def State.pairsQueued (s : State) (core : Nat) (grid team : W32) : List (Nat × Group × Op) :=
  (((s.cores[core]?).map Core.mxq).getD []).filterMap fun q => match s.groups[q.g]? with
    | some g => match g.ops.find? fun o => o.id = q.op with
      | some o => match o.body with
        | .mxpair _ _ => if g.grid = grid && g.team = team then some (q.g, g, o) else none
        | _ => none
      | none => none
    | none => none

/-- The bytes of Stage that an operation on the matrix engine has still to read: an odd MXPAIR reads those that its even half names
(spec 11 R265). -/
def State.stageReads (s : State) (gi : Nat) (g : Group) (o : Op) : List (Nat × Nat × Nat) :=
  let own := o.ownReads.flatMap fun r => s.rangeIds gi g .engRead .s r.1 r.2
  match o.body with
  | .mxpair _ true =>
    let i := (s.pairsQueued g.core g.grid g.team).findIdx fun q => q.1 = gi && q.2.2.id = o.id
    match (s.pairsQueued (partner g.core) g.grid g.team)[i]? with
    | some (ei, eg, eo) => own ++ eo.ownReads.flatMap fun r => s.rangeIds ei eg .engRead .s r.1 r.2
    | none => own
  | _ => own

/-- Whether a matrix operation has still to read its B, or a schoolbook BMUL to use its Boom window (spec 11 R267). -/
def Op.boomReads (o : Op) : Bool :=
  match o.body with
  | .mxmac _ | .mxpair _ _ => o.phase = .queued
  | .bmul _ _ _ _ _ _ _ _ _ _ _ school => school && o.phase != .done
  | _ => false

/-- Whether an operation is a CRES that has still to read its array in Stage, the length of which its header gives only then (spec 09
R235). -/
def Op.readsArray (o : Op) : Bool :=
  match o.body with
  | .cres _ .s _ _ _ => o.phase != .done
  | _ => false

/-- Whether an engine's write waits for the reads of earlier matrix operations of its group: of bytes that they read in Stage, and,
for a walk whose writes are not known before, or before a CRES whose array may yet grow, of Stage at all (spec 13 R303; log 83). to_: the
range, if it is known. -/
def State.stageBusy (s : State) (gi : Nat) (g : Group) (id : Nat) (to_ : Option (Space × W64 × Nat)) : Bool :=
  let reads := (g.before id).flatMap fun o => s.stageReads gi g o
  if (g.before id).any Op.readsArray && to_.all fun r => r.1 = .s then true
  else if reads.isEmpty then false
  else
    match to_ with
    | none => true
    | some (sp, a, n) =>
      let mine := s.rangeIds gi g .engWrite sp a n
      reads.any fun b => mine.contains b

/-- Whether a copy operation has to wait (spec 11 R267, 13 R303). -/
def State.copyWaits (s : State) (gi : Nat) (g : Group) (o : Op) : Bool :=
  match o.body with
  | .copy sp _ d _ n => s.stageBusy gi g o.id (some (sp, d, n))
  | .regOut sp a ws => s.stageBusy gi g o.id (some (sp, a, 4 * ws.length))
  | .gather _ dsc _ osp _ _ => (dsc || osp) && s.stageBusy gi g o.id none
  | .walk _ _ => s.stageBusy gi g o.id none
  | .boomld _ _ _ _ => (g.before o.id).any Op.boomReads
  | _ => false

/-- COPY_OPERATION_COMPLETION (spec 10 R249); input: group and operation. -/
def execCopyOperationCompletion (s : State) : Host.Outcome State Fault Refusal :=
  match s.input with
  | .index2 gi id =>
    match s.opAt gi id with
    | none => .next s
    | some (g, o) =>
      if o.phase != .queued || s.copyWaits gi g o then .next s
      else
        match o.body with
        | .regIn sp a t k n => .next (s.landRegs gi t g o sp a k n)
        | _ => match copyRun none s gi g o with
          | some r => .next (r.finish s gi id [])
          | none => .next s
  | _ => .next s

end Sys2Proof.Machine
end

