-- ==== Sys2Proof/Machine/CueHeap.lean ====
section
/-! DEFINITION. The Cue heap: shards, order, pushes, waiting pops, closing (spec 05 R135 to R152, 15 R307). -/

namespace Sys2Proof.Machine

/-- Statuses of the Cue forms (spec 11 R259). -/
def stOk : W32 := 0
def stFault : W32 := 0x12
def stFull : W32 := 0x30
def stStale : W32 := 0x31
def stInline : W32 := 0x32
def stClosed : W32 := 0x33
def stEnd : W32 := 0x34
def stRefused : W32 := 0x35

/-- Slots of a shard (spec 05 R139). -/
def shardSlots : Nat := 16384

/-- The home shard of a core's groups within its die (spec 05 R137). -/
def homeShard (core : Nat) : Nat := core % 36 % 8

/-- The first entry of a list in the order of R142. -/
def topOf : List CueEntry → Option CueEntry
  | [] => none
  | e :: es => match topOf es with
    | none => some e
    | some x => if e.before x then some e else some x

/-- The entries of a shard. -/
def Cue.entries (c : Cue) (die sh : Nat) : List CueEntry := ((c.shards[8 * die + sh]?).map Shard.entries).getD []

/-- The best shard of a die with its top (spec 05 R142). -/
def Cue.best (c : Cue) (die : Nat) : Option (Nat × CueEntry) :=
  (List.range 8).foldl (fun acc sh => match acc, topOf (c.entries die sh) with
    | none, some e => some (sh, e)
    | some (b, x), some e => if e.before x then some (sh, e) else some (b, x)
    | acc, none => acc) none

/-- The entry that a pop takes, with its die and shard; none when it waits (spec 05 R143). -/
def Cue.select (c : Cue) (die home : Nat) (strict : Bool) : Option (Nat × Nat × CueEntry) :=
  match c.best die with
  | some (b, x) =>
    match topOf (c.entries die home) with
    | some h => if !strict && x.gain.toNat ≤ 2 * h.gain.toNat then some (die, home, h) else some (die, b, x)
    | none => some (die, b, x)
  | none => c.dies.foldl (fun acc d => match acc, c.best d with
      | none, some (b, x) => some (d, b, x)
      | some (d0, b0, x0), some (b, x) => if x0.gain < x.gain then some (d, b, x) else some (d0, b0, x0)
      | acc, none => acc) none

/-- A shard changed. -/
def Cue.modShard (c : Cue) (die sh : Nat) (f : Shard → Shard) : Cue := { c with shards := c.shards.modify (8 * die + sh) f }

/-- An entry taken out. -/
def Cue.remove (c : Cue) (die sh slot : Nat) : Cue :=
  c.modShard die sh fun x => { x with entries := x.entries.filter fun e => e.slot != slot }

/-- The eight words of an entry as a pop returns it (spec 05 R138). -/
def CueEntry.words (e : CueEntry) : List W32 :=
  let w1 := (e.rest[0]?).getD 0
  e.gain :: BitVec.ofNat 32 (w1.toNat % 2 ^ 15 + e.gen.toNat * 2 ^ 16) :: e.rest.drop 1

/-- A handle (spec 05 R139). -/
def handleOf (die sh slot : Nat) (gen : BitVec 16) : W64 :=
  BitVec.ofNat 64 (die * 2 ^ 62 + sh * 2 ^ 59 + slot * 2 ^ 45 + gen.toNat)

/-- The live entry that a handle names, with its die and shard (spec 05 R140). -/
def Cue.lookup (c : Cue) (h : W64) : Option (Nat × Nat × CueEntry) :=
  let die := (h.extractLsb' 62 2).toNat
  let sh := (h.extractLsb' 59 3).toNat
  let slot := (h.extractLsb' 45 14).toNat
  if h.extractLsb' 16 29 != 0 || h.extractLsb' 0 16 = 0 || !c.dies.contains die then none
  else ((c.entries die sh).find? fun e => e.slot = slot && e.gen = h.extractLsb' 0 16).map fun e => (die, sh, e)

/-- Live entries of the heap. -/
def Cue.live (c : Cue) : Nat := (c.shards.map fun s => s.entries.length).sum

/-- Whether a grid owns the heap (spec 05 R135). -/
def State.ownsCue (s : State) (id : W32) : Bool := s.cue.owner = some id

/-- CUESTATE of a grid (spec 02 R65). -/
def State.cueState (s : State) (id : W32) : BitVec 2 := ((s.grid? id).map Grid.cuestate).getD 0

/-- The landings of an entry and a status in one lane; the registers are those that the operation holds: entry registers, if
written, and the status register (spec 11 R277). -/
def cueLands (o : Op) (lane width : Nat) (words : List W32) (status : W32) : List Land :=
  let vals : List W32 := if o.hold.length = 9 then words ++ [status] else [status]
  (o.hold.zip vals).filterMap fun (r, w) => match r with
    | .v k => some (.v k (oneLane lane) (List.replicate width w) (BitVec.ofNat 8 width))
    | _ => none

/-- The landing of a status alone in one lane. -/
def cueStatus (o : Op) (lane width : Nat) (status : W32) : List Land :=
  match o.hold.getLast? with
  | some (.v k) => [.v k (oneLane lane) (List.replicate width status) (BitVec.ofNat 8 width)]
  | _ => []

/-- The CUEPOP of a waiting group completes once its last lane is answered, and the group goes on (spec 05 R141, R145, R151), unless a copy
has still to land in a register that it writes (10 R251). -/
def State.cueLand (s : State) (gi : Nat) : State :=
  match (s.groups[gi]?).bind fun g => if g.live && g.wait = .cue then g.ops.find? fun o => o.cls = some .cq && o.phase = .started else none with
  | none => s
  | some o =>
    if (s.cue.pops.any fun q => q.g = gi) || !s.unguarded gi o.hold then s
    else (s.finishOp gi o.id o.lands none).modGroup gi fun h => h.resume 8 s.cycle

/-- A waiting pop of a lane answered (spec 05 R141, R145). -/
def State.cueServe (s : State) (p : Pop) (words : List W32) (status : W32) : State :=
  match s.groups[p.g]? with
  | none => s
  | some g =>
    match g.ops.find? fun o => o.cls = some .cq && o.phase = .started with
    | none => s
    | some o =>
      let lands := o.lands ++ cueLands o p.lane g.width words status
      let g1 := { g.modOp o.id (fun x => { x with lands := lands }) with task := g.task || status = stOk }
      (s.setGroup p.g g1).cueLand p.g

/-- Every waiting pop answered with the end-of-work token (spec 05 R148). -/
def State.endPops (s : State) : State :=
  let ps := s.cue.pops
  (List.range ps.length).foldl (fun s _ => match s.cue.pops with
    | [] => s
    | p :: rest => ({ s with cue := { s.cue with pops := rest } } : State).cueServe p (List.replicate 8 0) stEnd) s

/-- Closing begun (spec 05 R147, R148). -/
def State.beginClosing (s : State) (id : W32) : State := (s.modGrid id fun g => { g with cuestate := 1 }).endPops

/-- Whether closing begins of itself: the heap is open and empty, no task is in flight and every group waits in CUEPOP; a
pre-empted group does not (spec 05 R147, R152). Groups lost with a core are among neither (log 63). -/
def State.quiescent (s : State) (id : W32) : Bool :=
  let mine := s.groups.filter fun g => g.live && g.grid = id && !g.gone
  s.ownsCue id && s.cueState id = 0 && s.cue.live = 0 && !s.taskInFlight id
  && ((s.grid? id).map fun g => g.pre.isEmpty).getD false && !mine.isEmpty && mine.all fun g => g.wait = .cue

/-- Quiescence looked for after a step that can bring it about. -/
def State.cueSettle (s : State) (id : W32) : State := if s.quiescent id then s.beginClosing id else s

/-- The waiting pop that an entry pushed to a shard goes to (spec 05 R144). -/
def Cue.waiter (c : Cue) (die sh : Nat) : Option Pop :=
  (c.pops.find? fun p => p.die = die && p.shard = sh).or
    ((c.pops.find? fun p => p.die = die).or (c.pops.find? fun p => c.dies.contains p.die && (c.best p.die).isNone))

/-- The shard that a push from a core fills: the home shard, or the lowest of the die with a free slot (spec 15 R307). -/
def Cue.roomFor (c : Cue) (die home : Nat) : Option Nat :=
  (home :: List.range 8).find? fun sh => (c.entries die sh).length < shardSlots

/-- A push of an entry's words by a group of a core: the handle, or none when the die is full (spec 05 R139, R141, R144, 15
R307). -/
def State.cuePlace (s : State) (core : Nat) (words : List W32) : Option (W64 × State) :=
  let die := dieOf core
  match s.cue.roomFor die (homeShard core) with
  | none => none
  | some sh =>
    let es := s.cue.entries die sh
    let slot := ((List.range (es.length + 1)).find? fun k => !es.any fun e => e.slot = k).getD 0
    let gens := ((s.cue.shards[8 * die + sh]?).map Shard.gens).getD []
    let old := ((gens.find? fun p => p.1 = slot).map Prod.snd).getD 1
    let gen := if old = 0xFFFF then 1 else old + 1
    let stamp := (s.cue.stamps[die]?).getD 0 + 1
    let e : CueEntry := { slot := slot, gen := gen, stamp := stamp, gain := (words[0]?).getD 0,
                          rest := BitVec.ofNat 32 (((words[1]?).getD 0).toNat % 2 ^ 15) :: words.drop 2 }
    let c1 := (s.cue.modShard die sh fun x => { x with gens := (gens.filter fun p => p.1 != slot) ++ [(slot, gen)] })
    let c2 : Cue := { c1 with stamps := c1.stamps.set die stamp }
    let h := handleOf die sh slot gen
    match c2.waiter die sh with
    | some p => some (h, ({ s with cue := { c2 with pops := c2.pops.erase p } } : State).cueServe p e.words stOk)
    | none => some (h, { s with cue := c2.modShard die sh fun x => { x with entries := x.entries ++ [e] } })

/-- A push while the heap closes or is closed: the entry goes to the unrun area while there is room beyond one place for every
live entry (spec 05 R148, R149). The status; none where the write faults (18 R314). -/
def State.cueUnrun (s : State) (id : W32) (words : List W32) : Option (W32 × State) :=
  match s.grid? id with
  | none => some (stFull, s)
  | some g =>
    if g.packet.unruncap.toNat ≤ g.cunrun.toNat + s.cue.live then some (stFull, s)
    else
      let bytes := entryBytes ((words[0]?).getD 0) (words.drop 1) 0 true
      (s.writeD g.ctx (g.packet.unrun.toNat + 32 * g.cunrun.toNat) bytes).map fun s1 =>
        (stClosed, s1.modGrid id fun g => { g with cunrun := g.cunrun + 1 })

/-- The group of an index no longer has a task in flight (spec 05 R145). -/
def State.endTask (s : State) (gi : Nat) : State := s.modGroup gi fun g => { g with task := false }

end Sys2Proof.Machine
end

