-- ==== Sys2Proof/Machine/Arena.lean ====
section
/-! DEFINITION. A context's arena: a buddy system of blocks of 2^(c+6) bytes, c from 0 to 20 (spec 10 R255, 12 R298, 19 R331). -/

namespace Sys2Proof.Machine

/-- The least class whose block holds a size. -/
def classOf (size : Nat) : Nat := ((List.range 21).find? fun c => size ≤ 2 ^ (c + 6)).getD 20

/-- A context's record, with its arena as its descriptor gives it now: a range that only grew keeps its blocks, any other
change frees them all (spec 10 R255). -/
def State.arena (s : State) (ctx : W32) : Ctx :=
  let c := s.ctx ctx
  match s.ctxDesc ctx with
  | none => { c with arena := 0, arenaLen := 0, blocks := [], halloced := [] }
  | some d => c.follow d

/-- Whether an offset range of the arena meets an allocated block. -/
def Ctx.meets (c : Ctx) (off n : Nat) : Bool :=
  c.blocks.any fun b => b.1 < c.arena.toNat + off + n && c.arena.toNat + off < b.1 + 2 ^ (b.2 + 6)

/-- The offsets of the free blocks of a class that can come first: units that no larger one of the arena holds, or the buddies
of what encloses an allocated block. -/
def Ctx.freeOf (c : Ctx) (cls : Nat) : List Nat :=
  let size := 2 ^ (cls + 6)
  let len := c.arenaLen.toNat
  let units := if cls = 20 then (List.range (min (len / size) (c.blocks.length + 1))).map fun i => i * size
    else if len / size % 2 = 1 then [len / (2 * size) * (2 * size)] else []
  let buddies := (c.blocks.filter fun b => b.2 ≤ cls && cls ≠ 20).map fun b =>
      let i := (b.1 - c.arena.toNat) / size
      (if i % 2 = 0 then i + 1 else i - 1) * size
  (units ++ buddies).filter fun o => o + size ≤ len && !c.meets o size

/-- A block of a class taken: the lowest free one of the least class that has one, halved down to size (spec 10 R255). -/
def Ctx.take (c : Ctx) (cls : Nat) : Option (Nat × Ctx) :=
  ((List.range 21).filter fun k => cls ≤ k).findSome? fun k =>
    (c.freeOf k).min?.map fun o => (c.arena.toNat + o, { c with blocks := c.blocks ++ [(c.arena.toNat + o, cls)] })

/-- n blocks of a class taken one after another. -/
def Ctx.takeMany (c : Ctx) (cls : Nat) : Nat → Option (List Nat × Ctx)
  | 0 => some ([], c)
  | n + 1 =>
    match c.take cls with
    | none => none
    | some (a, c1) => (Ctx.takeMany c1 cls n).map fun (as, c2) => (a :: as, c2)

end Sys2Proof.Machine
end

