-- ==== Sys2Proof/Machine/Launch.lean ====
section
/-! DEFINITION. Launch: packets and kernel objects, refusal, team dispatch, placement and admission, grid completion (spec 12
R294 to R302, 18 R311 to R324, 01 R33 to R42, 05 R135, R136). -/

namespace Sys2Proof.Machine

/-- A field of a record in bytes: n bytes from an offset, little-endian (spec 00 R9). -/
def fieldAt (bs : List Byte) (off n : Nat) : Nat := leNat ((bs.drop off).take n)

/-- A field as a bit vector. -/
def bitsAt (w : Nat) (bs : List Byte) (off n : Nat) : BitVec w := BitVec.ofNat w (fieldAt bs off n)

/-- Whether a range of bytes is zero. -/
def zeroAt (bs : List Byte) (off n : Nat) : Bool := fieldAt bs off n = 0

/-- A launch packet from its 128 bytes (spec 18 R313). -/
def packetOf (bs : List Byte) : Packet :=
  { pmap := (bs.drop 112).take 16, roles := bitsAt 64 bs 104 8, recaddr := bitsAt 64 bs 96 8, seq := bitsAt 64 bs 88 8,
    prio := bitsAt 8 bs 82 1, constsize := bitsAt 32 bs 76 4, unruncap := bitsAt 32 bs 72 4, gcnt := bitsAt 32 bs 68 4,
    unrun := bitsAt 64 bs 56 8, doneval := bitsAt 64 bs 48 8, doneaddr := bitsAt 64 bs 40 8, waitval := bitsAt 64 bs 32 8,
    waitaddr := bitsAt 64 bs 24 8, const := bitsAt 64 bs 16 8, args := bitsAt 64 bs 8 8, kobj := bitsAt 64 bs 0 8,
    zero := zeroAt bs 83 5 && zeroAt bs 80 2 && zeroAt bs 64 4 && fieldAt bs 82 1 < 4 }

/-- A kernel object's header from its 64 bytes (spec 12 R301). -/
def kobjOf (bs : List Byte) : KObj :=
  { symcount := bitsAt 32 bs 48 4, argsize := bitsAt 32 bs 44 4, datasize := bitsAt 32 bs 40 4, textsize := bitsAt 32 bs 36 4,
    cuetask := bitsAt 32 bs 32 4, handler := bitsAt 32 bs 28 4, entry := bitsAt 32 bs 24 4, stack := bitsAt 32 bs 20 4,
    allow := bitsAt 8 bs 17 1, queues := bitsAt 8 bs 16 1, boom := bitsAt 8 bs 15 1, opbanks := bitsAt 8 bs 14 1,
    stage := bitsAt 16 bs 12 2, flags := bitsAt 8 bs 11 1, acc := bitsAt 8 bs 10 1, team := bitsAt 16 bs 8 2,
    regs := bitsAt 8 bs 7 1, width := bitsAt 8 bs 6 1, version := bitsAt 16 bs 4 2, magic := bitsAt 32 bs 0 4,
    zero := zeroAt bs 52 12 && zeroAt bs 18 2 && fieldAt bs 11 1 < 16 }

/-- FLAGS of a kernel object: pair, spill, persistent, Cue. -/
def KObj.pair (k : KObj) : Bool := k.flags.getLsbD 0
def KObj.spill (k : KObj) : Bool := k.flags.getLsbD 1
def KObj.persistent (k : KObj) : Bool := k.flags.getLsbD 2
def KObj.cue (k : KObj) : Bool := k.flags.getLsbD 3

/-- Groups of a team on its even core, or on its only core (spec 01 R33). -/
def KObj.evenGroups (k : KObj) : Nat := if k.pair then (k.team.toNat + 1) / 2 else k.team.toNat

/-- Groups on the half given. -/
def KObj.groupsIn (k : KObj) (odd : Bool) : Nat := if odd then k.team.toNat - k.evenGroups else k.evenGroups

/-- x rounded up to a multiple of n. -/
def roundUp (x n : Nat) : Nat := (x + n - 1) / n * n

/-- Bytes of the stage part of a half, with its spill windows (spec 12 R295). -/
def KObj.stageBytes (k : KObj) (odd : Bool) : Nat :=
  roundUp (k.stage.toNat * 1024 + (if k.spill then k.groupsIn odd * 1024 else 0)) 4096

/-- Bytes of the queue area, on the even core (spec 10 R254, 12 R295). -/
def KObj.queueBytes (k : KObj) : Nat := k.queues.toNat * 16 * (4 * k.width.toNat + 8)

/-- Stage units of 4 KiB of a half, the queue area among them (spec 18 R324). -/
def KObj.unitsIn (k : KObj) (odd : Bool) : Nat :=
  k.stageBytes odd / 4096 + (if odd then 0 else (k.queueBytes + 4095) / 4096)

/-- The cases of spec 12 R302, where the object is refused. base: its address. -/
def KObj.bad (k : KObj) (base : Nat) : Bool :=
  let text (o : W32) : Bool := o.toNat < k.textsize.toNat
  let label (o : W32) : Bool := o = 0xFFFFFFFF || (o.toNat % 32 = 0 && text o)
  !k.zero || k.magic != 0x31425843 || k.version != 1 || !(k.width = 16 || k.width = 32 || k.width = 64)
  || k.regs = 0 || 32 < k.regs.toNat || k.team = 0 || 8 < k.acc.toNat || 512 < k.stage.toNat || 16 < k.opbanks.toNat
  || 32 < k.boom.toNat || 16 < k.queues.toNat
  || (if k.queues = 0 then k.allow != 0 else k.allow = 0 || 16 < k.allow.toNat)
  || k.stack.toNat % 64 != 0 || 2 ^ 24 < k.stack.toNat || k.textsize.toNat % 64 != 0 || k.argsize.toNat % 8 != 0
  || 65536 < k.argsize.toNat
  || 32768 < k.team.toNat * k.width.toNat || (k.cue && !k.persistent)
  || !label k.cuetask || !label k.handler || (k.cue != (k.cuetask != 0xFFFFFFFF))
  || !text k.entry || (k.datasize != 0 && base % 65536 != 0)
  || 524288 < k.stageBytes false || (k.pair && 524288 < k.stageBytes true)

/-- Malformed packet fields (spec 18 R317 BADPKT, 05 R136). -/
def Packet.bad (p : Packet) (cue : Bool) : Bool :=
  let mis (a : W64) (n : Nat) : Bool := a.toNat % n != 0
  !p.zero || p.gcnt = 0 || p.constsize.toNat % 4 != 0 || 65536 < p.constsize.toNat
  || mis p.kobj 64 || mis p.args 8 || mis p.const 4 || mis p.waitaddr 8 || mis p.doneaddr 8 || mis p.recaddr 32
  || (if cue then mis p.unrun 32 else p.unrun != 0 || p.unruncap != 0)

/-- The PMAP entry of a team (spec 18 R318). -/
def Packet.place (p : Packet) (team : Nat) : Nat := ((p.pmap[team % 16]?).getD 0).toNat

/-- The PMAP entries that teams of the grid use. -/
def Packet.used (p : Packet) : List Nat := (List.range (min 16 p.gcnt.toNat)).map p.place

/-- A PMAP entry that names no core, or an odd core for a pair team: of all sixteen, which teams that GROW adds may use too (spec 18
R317 BADMAP, R318). -/
def Packet.badMap (p : Packet) (pair : Bool) : Bool :=
  ((List.range 16).map p.place).any fun e => (144 ≤ e && e < 255) || (pair && e != 255 && e % 2 = 1)

/-- Whether a bank may serve stage, or operands, when the driver's roles and the AUTO bits are looked at alone. -/
def Core.bankMay (c : Core) (b role : Nat) : Bool := roleOf c.bankrole b = role || c.bankauto.getLsbD b

/-- Whether a half fits an empty core (spec 18 R324, 01 R34). -/
def KObj.fitsEmpty (k : KObj) (odd : Bool) (c : Core) : Bool :=
  let banks := (k.unitsIn odd + 7) / 8
  let count (p : Nat → Bool) : Nat := ((List.range 32).filter p).length
  let n := k.groupsIn odd
  banks + k.opbanks.toNat ≤ count (fun b => c.bankMay b 0 || c.bankMay b 2) && banks ≤ count (fun b => c.bankMay b 0)
  && (n + 3) / 4 ≤ 256 && (n + 3) / 4 * (k.width.toNat * k.regs.toNat * 32) ≤ 2 ^ 20 && n * k.acc.toNat ≤ 8

/-- The cores that an entry may mean, by the lower core of a pair (spec 18 R318). -/
def sitesOf (pair : Bool) (e : Nat) : List Nat :=
  if e != 255 then [e] else if pair then (List.range 72).map fun i => 2 * i else List.range 144

/-- Whether a team fits an empty core or pair. -/
def State.fitsEmpty (s : State) (k : KObj) (site : Nat) : Bool :=
  let on (core : Nat) (odd : Bool) : Bool := match s.cores[core]? with
    | some c => k.fitsEmpty odd c
    | none => false
  on site false && (!k.pair || on (site + 1) true)

/-- A team's half that a core can take now. -/
structure Fit where
  units : List (Nat × Nat)
  banks : List Nat
  roles : W64
deriving DecidableEq, Repr

/-- Banks, and whole units of 4 KiB, of a core's allocations (spec 18 R324). -/
def State.usedUnits (s : State) (core : Nat) : List (Nat × Nat) :=
  s.teams.flatMap fun t => t.sites.flatMap fun (c, odd) => if c = core then (t.half odd).units else []

/-- The free units of a bank. -/
def freeUnits (used : List (Nat × Nat)) (b : Nat) : List (Nat × Nat) :=
  ((List.range 8).map fun u => (b, u)).filter fun x => !used.contains x

/-- Stage units and operand banks found on a core: units of stage banks, whole operand banks, then free AUTO banks converted,
stage first (spec 18 R324). -/
def State.fitBanks (s : State) (core : Nat) (c : Core) (nUnits nBanks : Nat) : Option Fit :=
  let used := s.usedUnits core
  let held := s.usedBanks core
  let free (b : Nat) : Bool := !held.contains b
  let all := List.range 32
  let own := ((all.filter fun b => roleOf c.bankact b = 0).flatMap (freeUnits used)).take nUnits
  let ops := (all.filter fun b => roleOf c.bankact b = 2 && free b).take nBanks
  let autos := all.filter fun b => c.bankauto.getLsbD b && free b && !ops.contains b
  let toS := (autos.filter fun b => roleOf c.bankact b != 0).take ((nUnits - own.length + 7) / 8)
  let toO := (autos.filter fun b => roleOf c.bankact b != 2 && !toS.contains b && !own.any fun u => u.1 = b).take (nBanks - ops.length)
  let units := (own ++ toS.flatMap (freeUnits used)).take nUnits
  let banks := ops ++ toO
  if units.length = nUnits && banks.length = nBanks then
    some { units := units, banks := banks,
           roles := toO.foldl (fun w b => setRole w b 2) (toS.foldl (fun w b => setRole w b 0) c.bankact) }
  else none

/-- Live groups on a core, in a quadrant. -/
def State.groupsAt (s : State) (core quad : Nat) : List Group := s.groups.filter fun g => g.live && g.core = core && g.quad = quad

/-- Bytes of a quadrant's vector file that resident groups occupy (spec 02 R53). -/
def State.fileBytes (s : State) (core quad : Nat) : Nat :=
  ((s.groupsAt core quad).map fun g => g.width * 4 * ((s.teamOf g).map Team.regs).getD 0).sum

/-- Accumulator slots of a core that resident groups bind. -/
def State.accUsed (s : State) (core : Nat) : Nat :=
  ((s.groups.filter fun g => g.live && g.core = core).map Group.accSlots).sum

/-- Bytes of a core's Boom slice that resident teams hold. -/
def State.boomUsed (s : State) (core : Nat) : Nat :=
  (s.teams.flatMap fun t => t.sites.map fun (c, odd) => if c = core then (t.half odd).boom else 0).sum

/-- Pre-empted teams that keep Boom bytes on a core, with their grid (spec 19 R339). -/
def State.retained (s : State) (core : Nat) : List (W32 × PreTeam) :=
  s.grids.flatMap fun g => (g.pre.filter fun p =>
    p.kept && (p.core = core || (g.kobj.pair && p.core + 1 = core))).map fun p => (g.id, p)

/-- Whether a core can take a half of a team of an object now (spec 01 R34, 02 R53, R54, 04 R101). -/
def State.fitHalf (s : State) (k : KObj) (core : Nat) (odd : Bool) : Option Fit :=
  match s.cores[core]? with
  | none => none
  | some c =>
    let n := k.groupsIn odd
    let perQuad (q : Nat) : Nat := (n + 3 - q) / 4
    let file := k.width.toNat * k.regs.toNat * 32
    let down := c.fenced || ((s.dies[dieOf core]?).map Die.down).getD false
    let room := (List.range 4).all fun q =>
      (s.groupsAt core q).length + perQuad q ≤ 256 && s.fileBytes core q + perQuad q * file ≤ 2 ^ 20
    if !down && room && s.accUsed core + n * k.acc.toNat ≤ 8 && s.boomUsed core + k.boom.toNat * 65536 ≤ 2 ^ 21
    then s.fitBanks core c (k.unitsIn odd) k.opbanks.toNat else none

/-- A half that a fit gives. -/
def Fit.half (f : Fit) (k : KObj) (odd : Bool) : Half :=
  { stage := k.stageBytes odd, units := f.units, banks := f.banks, cells := [], boom := k.boom.toNat * 65536, boomCells := [],
    pools := List.replicate 64 0 }

/-- A half that a team does not have. -/
def Half.none : Half := { stage := 0, units := [], banks := [], cells := [], boom := 0, boomCells := [], pools := List.replicate 64 0 }

/-- The markers of a register that holds nothing yet (spec 02 R58). -/
def VReg.unwritten (k width : Nat) : VReg :=
  { val := List.replicate width (BitVec.ofNat 32 (0x7FA5AA00 + k)), mark := allLanes width, tag := BitVec.ofNat 8 width }

/-- Scalar registers at group launch (spec 12 R296). stack: one past the group's stack block, or 0. -/
def launchScalars (r : Grid) (stack : Nat) : List W32 :=
  let base := r.packet.kobj.toNat
  let data := if r.kobj.datasize = 0 then 0 else base + roundUp (64 + r.kobj.textsize.toNat) 65536
  let lo (x : Nat) : W32 := BitVec.ofNat 32 x
  let arg (j : Nat) : W32 := bitsAt 32 ((r.args.drop (4 * j)).take 4) 0 4
  (List.range 126).map fun k =>
    if k = 0 then lo data else if k = 1 then lo (data / 2 ^ 32)
    else if k = 2 then lo r.packet.args.toNat else if k = 3 then lo (r.packet.args.toNat / 2 ^ 32)
    else if k < 36 then arg (k - 4)
    else if k = 114 then lo stack else if k = 115 then lo (stack / 2 ^ 32) else 0

/-- A group at launch (spec 02 R50, R58, R65, R66, 01 R20, 12 R295, R296). h: its place among the groups of its half. -/
def Group.atLaunch (r : Grid) (team : W32) (idx core slot h : Nat) (odd : Bool) (stack cycle : Nat) : Group :=
  let k := r.kobj
  let base := r.packet.kobj.toNat + 64
  let w := k.width.toNat
  { live := true, grid := r.id, team := team, idx := idx, nGroups := k.team.toNat, ctx := r.ctx, core := core, quad := h % 4,
    slot := slot, half := odd, width := w, pc := BitVec.ofNat 64 (base + k.entry.toNat), exec := allLanes w, parked := 0,
    served := 0, stored := 0, exited := 0, lanePC := List.replicate w 0, yc := 0, sregs := launchScalars r stack,
    vregs := (List.range (8 * k.regs.toNat)).map fun i => VReg.unwritten i w, preds := List.replicate 48 0,
    accSlots := k.acc.toNat, acc := [], window := 0, chain := none, ops := [], opSeq := 0, due := [],
    prio := r.packet.prio.setWidth 2, cdepth := 4, ntthr := 256, pform := 0, strict := false,
    xbase := if k.handler = 0xFFFFFFFF then 0 else BitVec.ofNat 64 (base + k.handler.toNat), xcause := 0, xval := 0, xpc := 0,
    xrpc := 0, trap := false, inchain := false, chpos := 0, chfirst := 0, tokwait := 0, spwEn := k.spill,
    spwBase := if k.spill then BitVec.ofNat 10 (k.stage.toNat + h) else 0, role := r.packet.roles.extractLsb' (4 * (idx % 16)) 4,
    pmc := List.replicate 8 0, pmsel := List.replicate 8 0, pmovf := 0, pmctl := 0, arr := List.replicate 16 0, inline := [],
    task := false, cueLeft := 0, wait := .ready, since := cycle, stalled := false, redo := [], fetched := none, gone := false,
    stopped := false }

/-- The lowest free slot of a quadrant (spec 01 R33). -/
def State.freeSlot (s : State) (core quad : Nat) : Nat :=
  let used := (s.groupsAt core quad).map Group.slot
  ((List.range 256).find? fun i => !used.contains i).getD 0

/-- The groups of a half added, in index order; stk: their stack blocks. -/
def State.addGroups (s : State) (r : Grid) (team : W32) (core first : Nat) (odd : Bool) (stk : List Nat) : State :=
  let size := 2 ^ (classOf r.kobj.stack.toNat + 6)
  (List.range (r.kobj.groupsIn odd)).foldl (fun s h =>
    let stack := match stk[first + h]? with
      | some a => a + size
      | none => 0
    { s with groups := s.groups ++ [Group.atLaunch r team (first + h) core (s.freeSlot core (h % 4)) h odd stack s.cycle] }) s

/-- A team as it is admitted, before its groups (spec 01 R33 to R37, 10 R254, R257). -/
def Team.atLaunch (r : Grid) (team : W32) (core : Nat) (even odd : Half) (stk : List Nat) : Team :=
  { grid := r.id, id := team, ctx := r.ctx, pair := r.kobj.pair, core := core, width := r.kobj.width.toNat,
    nGroups := r.kobj.team.toNat, regs := 8 * r.kobj.regs.toNat, phase := List.replicate 16 0,
    queues := List.replicate r.kobj.queues.toNat [], allow := r.kobj.allow.toNat, pushWait := [], popWait := [], rv := [],
    even := even, odd := odd, claims := [], pairEven := [], pairOdd := [], stackBlocks := stk, stop := none, lost := none }

/-- The bank roles of a core set as a fit needs them. -/
def State.setRoles (s : State) (core : Nat) (w : W64) : State :=
  { s with cores := s.cores.modify core fun c => c.serve w }

/-- The stack blocks of a team taken from the arena, or none where it cannot supply them (spec 12 R298). -/
def State.takeStacks (s : State) (r : Grid) : Option (List Nat × State) :=
  if r.kobj.stack = 0 then some ([], s)
  else ((s.arena r.ctx).takeMany (classOf r.kobj.stack.toNat) r.kobj.team.toNat).map fun (as, c) => (as, s.setCtx c)

/-- Offset of the Boom section of a team image, from its GSIZE (spec 19 R340). -/
def boomOffset (k : KObj) (gsize : Nat) : Nat :=
  let part (odd : Bool) : Nat := k.stageBytes odd + k.opbanks.toNat * 32768
  let stage := part false + k.queueBytes + (if k.pair then part true else 0)
  roundUp (256 + gsize * k.team.toNat + stage) 256 + 256 * (if k.pair then 2 else 1)

/-- Bytes of the section of n pending signals in an image (spec 19 R340). -/
def signalSize (n : Nat) : Nat := roundUp (16 * n) 256

/-- Boom bytes written into a team's image, which then has BOOMSAVED; the lists after them move behind them (spec 19 R339, R340). none
where that faults. -/
def State.putBoom (s : State) (r : Grid) (p : PreTeam) : Option State := do
  let n := r.kobj.boom.toNat * 65536
  let hdr ← s.readD r.ctx p.image.toNat 256
  let off := p.image.toNat + boomOffset r.kobj (fieldAt hdr 44 4)
  let bytes := p.boomEven.read 0 n ++ (if r.kobj.pair then p.boomOdd.read 0 n else [])
  let list ← s.readD r.ctx off (signalSize (fieldAt hdr 36 4) + 64 * fieldAt hdr 40 4)
  let s1 ← s.writeD r.ctx (off + bytes.length) list
  let s2 ← s1.writeD r.ctx off bytes
  s2.writeD r.ctx (p.image.toNat + 30) [BitVec.ofNat 8 (fieldAt hdr 30 1 ||| 2)]

/-- A pre-empted team's retained Boom bytes saved in its image (spec 19 R339). DESIGN CHOICE: none where a write faults, on which R339
is silent: the bytes stay retained (log 95). -/
def State.saveBoom (s : State) (r : Grid) (p : PreTeam) : Option State :=
  (s.putBoom r p).map fun s2 => s2.modGrid r.id fun g => { g with pre := g.pre.map fun q =>
    if q.team = p.team then { q with boomEven := [], boomOdd := [], kept := false } else q }

/-- Retained Boom bytes of pre-empted teams saved where a team of n bytes needs the room (spec 19 R339). DESIGN CHOICE: where a save
faults the new team is not admitted there (log 95). -/
def State.makeBoomRoom (s : State) (core n : Nat) : Option State :=
  if n = 0 then some s
  else (s.retained core).foldl (fun acc (id, p) => match acc with
    | none => none
    | some s =>
      let held := ((s.retained core).map fun (i, _) => ((s.grid? i).map fun g => g.kobj.boom.toNat * 65536).getD 0).sum
      if s.boomUsed core + held + n ≤ 2 ^ 21 then some s
      else match s.grid? id with
        | none => some s
        | some r => s.saveBoom r p) (some s)

/-- A team with its groups put on a core, or on the pair of an even core, if the cores have room for it (spec 01 R34); stk: its
stack blocks. -/
def State.placeAt (s : State) (r : Grid) (team : W32) (core : Nat) (stk : List Nat) : Option State := do
  let k := r.kobj
  let fe ← s.fitHalf k core false
  let fo ← if k.pair then s.fitHalf k (core + 1) true else some { units := [], banks := [], roles := 0 }
  let s1 ← s.makeBoomRoom core (k.boom.toNat * 65536)
  let s2 ← if k.pair then s1.makeBoomRoom (core + 1) (k.boom.toNat * 65536) else some s1
  let s3 := s2.setRoles core fe.roles
  let s4 := if k.pair then s3.setRoles (core + 1) fo.roles else s3
  let t := Team.atLaunch r team core (fe.half k false) (if k.pair then fo.half k true else Half.none) stk
  let s5 : State := { s4 with teams := s4.teams ++ [t] }
  let s6 := s5.addGroups r team core 0 false stk
  some (if k.pair then s6.addGroups r team (core + 1) k.evenGroups true stk else s6)

/-- A team that is now on its cores, recorded there under a code, and counted in its grid. -/
def State.arrived (s : State) (grid team : W32) (code : Nat) : State :=
  match (s.teamIdx grid team).bind fun ti => s.teams[ti]? with
  | none => s
  | some t => (s.reelTeam t code).modGrid grid fun g => { g with running := g.running + 1 }

/-- A team admitted on a core, or on the pair of an even core, if every resource of it is there at once (spec 01 R34, R35);
the ADMIT record of each core is written (21 R363). -/
def State.admitAt (s : State) (r : Grid) (team : W32) (core : Nat) : Option State := do
  let (stk, s1) ← s.takeStacks r
  let s2 ← s1.placeAt r team core stk
  some (s2.arrived r.id team 0x18)

/-- Temperature and heat of a core or pair: a pair is judged by its hotter core (spec 18 R319). -/
def State.siteTemp (s : State) (pair : Bool) (site : Nat) : Nat × Bool :=
  let t (c : Nat) : Nat × Bool := match s.cores[c]? with
    | some x => (x.temp.toNat, x.hot)
    | none => (0, false)
  if pair then (max (t site).1 (t (site + 1)).1, (t site).2 || (t (site + 1)).2) else t site

/-- The sites in the order in which "any" tries them: cooler first, ties to the lower number. -/
def byTemp (temp : Nat → Nat) : List Nat → List Nat
  | [] => []
  | x :: xs =>
    let rest := byTemp temp xs
    (rest.filter fun y => temp y < temp x) ++ x :: rest.filter fun y => temp x ≤ temp y

/-- A team placed and admitted as its PMAP entry says (spec 18 R318, R319). -/
def State.admitOne (s : State) (r : Grid) (team : W32) : Option State :=
  let e := r.packet.place team.toNat
  let hot (x : Nat) : Bool := (s.siteTemp r.kobj.pair x).2
  if e != 255 && !hot e then s.admitAt r team e
  else
    let order := byTemp (fun x => (s.siteTemp r.kobj.pair x).1) (sitesOf r.kobj.pair 255)
    (order.filter (!hot ·) ++ order.filter hot).findSome? (s.admitAt r team)

/-- Teams admitted one after another, all or none. -/
def State.admitAll (s : State) (r : Grid) : List W32 → Option State
  | [] => some s
  | t :: ts => (s.admitOne r t).bind fun s1 => State.admitAll s1 r ts

/-- Teams of a grid with named cores first, so that "any" entries do not take a room that only another team can use (log 68). -/
def Packet.order (p : Packet) (ts : List W32) : List W32 :=
  (ts.filter fun t => p.place t.toNat != 255) ++ ts.filter fun t => p.place t.toNat = 255

/-- A device of the same cores without residents, none of them fenced, down or hot, on which a persistent grid must fit (spec 01 R42;
log 68). -/
def State.empty (s : State) : State :=
  { s with groups := [], teams := [], ctxs := [], grids := s.grids.map fun g => { g with pre := [] },
           cores := s.cores.map fun c => { c with bankact := c.bankrole, fenced := false, hot := false },
           dies := s.dies.map fun d => { d with down := false } }

/-- The next GRIDID from a value on: never 0, and none that a grid still holds (spec 18 R315). -/
def freeGrid (ids : List W32) (fuel : Nat) (id : W32) : W32 :=
  match fuel with
  | 0 => id
  | n + 1 => if id = 0 || ids.contains id then freeGrid ids n (id + 1) else id

/-- The status with which a launch is refused when its packet is taken, or none (spec 18 R317). fault: something was not
readable, or the context is off. -/
def State.refusal (s : State) (r : Grid) (fault : Bool) : Option Nat :=
  let k := r.kobj
  let p := r.packet
  if fault then some 0x12
  else if p.bad k.cue then some 0x50
  else if k.bad p.kobj.toNat then some 0x51
  else if p.badMap k.pair then some 0x52
  else if p.used.any fun e => !(sitesOf k.pair e).any (s.fitsEmpty k) then some 0x53
  else if k.persistent && (144 * 1024 < p.gcnt.toNat
      || (s.empty.admitAll { r with kobj := { k with stack := 0 } }
           (p.order ((List.range p.gcnt.toNat).map fun i => BitVec.ofNat 32 i))).isNone) then some 0x54
  else if k.cue && p.unruncap.toNat < 131072 then some 0x55
  else none

/-- A refused launch: LASTSTAT of its queue, the completion record and word, and a REFUSE record (spec 18 R317, 21 R363). Where one of these
writes faults, the context is fatal, and the grid completes as one of a fatal context (18 R314). -/
def State.refuse (s : State) (r : Grid) (status : Nat) : State :=
  let s1 := (s.lqWrite r.queue 26 2 status).reel dispatcherRing 0x1C (some r.ctx) (status * 2 ^ 57 + r.queue * 2 ^ 49)
  let w := s1.completionWrites r status
  if w.2 then w.1.forgetGrid r.id else w.1.contextFatal r.ctx dispatcherRing noSlot 0x84

/-- Whether a queue is enabled and holds a packet: none before bring-up has ended, nor while the table's BASE is 0 (spec 18 R311, 20
R358, R360). -/
def State.queueFull (s : State) (q : Nat) : Bool :=
  s.bringState = 1 && s.lqbase.extractLsb' 12 45 != 0 && 128 ≤ s.lqRead q 24 1 && s.lqRead q 12 4 != s.lqRead q 16 4

/-- Context of a queue. -/
def State.queueCtx (s : State) (q : Nat) : W32 := BitVec.ofNat 32 (s.lqRead q 20 4)

/-- The bytes of a queue's head packet (spec 18 R311). -/
def State.headPacket (s : State) (q : Nat) : Option (List Byte) :=
  let slots := max 1 (s.lqRead q 8 4)
  s.readD (s.queueCtx q) (s.lqRead q 0 8 + 128 * (s.lqRead q 12 4 % slots)) 128

/-- Whether the grid last taken from a queue still has indices to dispatch (spec 18 R315). -/
def State.queueBusy (s : State) (q : Nat) : Bool :=
  match (s.lqLast.find? fun e => e.1 = q).bind fun e => s.grid? e.2 with
  | none => false
  | some g => g.queue = q && g.next.toNat < g.gcnt.toNat

/-- Whether a queue is ready (spec 18 R315). A packet that cannot be read is taken, to be refused. -/
def State.queueReady (s : State) (q : Nat) : Bool :=
  s.queueFull q && !s.queueBusy q &&
  match s.headPacket q with
  | none => true
  | some bs =>
    let p := packetOf bs
    p.seq.toNat = s.lqRead q 12 4 &&
    (p.waitaddr = 0 || match s.readD (s.queueCtx q) p.waitaddr.toNat 8 with
      | none => false
      | some w => p.waitval.toNat ≤ leNat w)

/-- The head packet of a queue taken: HEAD advances, a GRIDID is given, and the launch is checked (spec 18 R313 to R317).
lost: its dependence word could not be read. -/
def State.takePacket (s : State) (q : Nat) (lost : Bool) : State :=
  let ctx := s.queueCtx q
  let head := s.lqRead q 12 4
  let bytes := s.headPacket q
  let p := packetOf (bytes.getD [])
  let hdr := s.readD ctx p.kobj.toNat 64
  let k := kobjOf (hdr.getD [])
  let args := s.readD ctx p.args.toNat (min k.argsize.toNat 65536)
  let const := s.readD ctx p.const.toNat (min p.constsize.toNat 65536)
  let off := match s.ctxDesc ctx with
    | none => true
    | some d => !d.en
  let id := freeGrid (s.grids.map Grid.id) (s.grids.length + 2) s.nextGrid
  let pri := s.lqRead q 24 1 % 8
  let r : Grid :=
    { id := id, ctx := ctx, queue := q, pri := pri, packet := p, kobj := k, gcnt := p.gcnt, next := 0,
      args := (args.getD []).take 128, exited := 0, running := 0, tol := 0, resid := 0, cuestate := 0, cunrun := 0, pre := [],
      fatal := false }
  let s1 := (s.lqWrite q 12 4 ((head + 1) % 2 ^ 32)).lqWrite q 25 1 (if (head + 1) % 2 ^ 32 = s.lqRead q 16 4 then 0 else 2)
  let last := (q, id) :: s1.lqLast.filter (fun e => e.1 != q)
  let s2 := { s1 with lqPtr := s1.lqPtr.set pri q, lqLast := last, nextGrid := id + 1, grids := s1.grids ++ [r] }
  match s2.refusal r (lost || off || bytes.isNone || hdr.isNone || args.isNone || const.isNone) with
  | some status => s2.refuse r status
  | none => s2

/-- PACKET_TAKE (spec 18 R315): among the ready queues of highest priority, the first after the level's pointer. -/
def takeStep (s : State) : State :=
  let ready := ((List.range 256).filter s.queueFull).filter s.queueReady
  let pri (q : Nat) : Nat := s.lqRead q 24 1 % 8
  match (ready.map pri).max? with
  | none => s
  | some l =>
    let mine := ready.filter fun q => pri q = l
    let p := (s.lqPtr[l]?).getD 255
    match (mine.find? fun q => p < q).or mine.head? with
    | none => s
    | some q => s.takePacket q false

/-- DEPENDENCE_CHECK of a queue (spec 18 R314): the queue waits in STATE 1; a word that cannot be read refuses the packet. -/
def dependStep (s : State) (q : Nat) : State :=
  if !s.queueFull q || s.queueBusy q then s
  else
    match s.headPacket q with
    | none => s
    | some bs =>
      let p := packetOf bs
      if p.seq.toNat != s.lqRead q 12 4 || p.waitaddr = 0 then s
      else
        match s.readD (s.queueCtx q) p.waitaddr.toNat 8 with
        | none => s.takePacket q true
        | some w => if p.waitval.toNat ≤ leNat w then s else s.lqWrite q 25 1 1

/-- Grids with indices still to dispatch, of the highest queue priority among them (spec 18 R316). -/
def State.toDispatch (s : State) : List Grid :=
  let open_ := s.grids.filter fun g => !g.fatal && g.next.toNat < g.gcnt.toNat
  open_.filter fun g => !open_.any fun h => g.pri < h.pri

/-- TEAM_DISPATCH of a grid: its next index, or every index of a persistent grid, which is admitted whole (spec 01 R39, R42); none
while a grid of a queue of higher priority has indices to dispatch (18 R316). -/
def dispatchStep (s : State) (id : W32) : State :=
  match s.toDispatch.find? fun g => g.id = id with
  | none => s
  | some r =>
    if r.gcnt.toNat ≤ r.next.toNat then s
    else if r.kobj.persistent then
      ({ s with waiting := s.waiting ++ (List.range r.gcnt.toNat).map fun i => (id, BitVec.ofNat 32 i) } : State).modGrid id
        fun g => { g with next := g.gcnt }
    else ({ s with waiting := s.waiting ++ [(id, r.next)] } : State).modGrid id fun g => { g with next := g.next + 1 }

/-- The priority of a waiting team's queue. -/
def State.priOf (s : State) (id : W32) : Nat := ((s.grid? id).map Grid.pri).getD 0

/-- The waiting teams that no earlier one of equal or higher priority holds back (spec 18 R316): of each priority level the
first, unless a higher level waits from before it; highest priority first. -/
def State.frontier (s : State) : List (W32 × W32) :=
  let rec go (top : Option Nat) : List (W32 × W32) → List (W32 × W32)
    | [] => []
    | t :: ts =>
      let p := s.priOf t.1
      if top.isNone || top.any (· < p) then go (some p) ts ++ [t] else go top ts
  go none s.waiting

/-- The Cue heap taken by a grid whose teams stand on dies (spec 05 R135, R139). -/
def State.ownCue (s : State) (id : W32) : State :=
  let dies := (s.teams.filter fun t => t.grid = id).map fun t => dieOf t.core
  { s with cue := { Cue.reset with owner := some id, dies := (List.range 4).filter dies.contains } }

/-- One waiting team, or one persistent grid whole, admitted if it fits now: its teams in dispatch order, or where they cannot stand so
with those of named cores first (spec 01 R34, R42, 05 R135, R136, 18 R316; log 68). -/
def State.tryAdmit (s : State) (id team : W32) : Option State :=
  match s.grid? id with
  | none => none
  | some r =>
    if r.kobj.persistent then
      let ts := (s.waiting.filter fun t => t.1 = id).map Prod.snd
      if r.kobj.cue && s.cue.owner.isSome then none
      else
        match (s.admitAll r ts).or (s.admitAll r (r.packet.order ts)) with
        | none => none
        | some s1 =>
          let s2 := { s1 with waiting := s1.waiting.filter fun t => t.1 != id }
          if !r.kobj.cue then some s2
          else
            let s3 := s2.ownCue id
            if r.packet.unruncap.toNat < 131072 * s3.cue.dies.length then
              some (({ s with waiting := s.waiting.filter fun t => t.1 != id } : State).refuse r 0x55)
            else some s3
    else
      (s.admitOne r team).map fun s1 => { s1 with waiting := s1.waiting.filter fun t => !(t.1 = id && t.2 = team) }

/-- TEAM_ADMISSION (spec 01 R34, 18 R316). -/
def admitStep (s : State) : State := (s.frontier.findSome? fun t => s.tryAdmit t.1 t.2).getD s

/-- Whether a grid is complete (spec 01 R41), or ended by a fatal fault of its context (19 R342). -/
def State.gridDone (s : State) (id : W32) : Bool :=
  match s.grid? id with
  | none => false
  | some r => r.fatal || r.running = 0 && r.pre.isEmpty && r.next = r.gcnt && r.exited = r.gcnt.toNat && !s.waiting.any fun t => t.1 = id

/-- PACKET_TAKE. -/
def execPacketTake (s : State) : Host.Outcome State Fault Refusal := .next (takeStep s)

/-- DEPENDENCE_CHECK; input: the queue. -/
def execDependenceCheck (s : State) : Host.Outcome State Fault Refusal :=
  match s.input with
  | .index q => .next (if q < 256 then dependStep s q else s)
  | _ => .next s

/-- TEAM_DISPATCH; input: the grid. -/
def execTeamDispatch (s : State) : Host.Outcome State Fault Refusal :=
  match s.input with
  | .grid id => .next (dispatchStep s id)
  | _ => .next s

/-- TEAM_ADMISSION. -/
def execTeamAdmission (s : State) : Host.Outcome State Fault Refusal := .next (admitStep s)

end Sys2Proof.Machine
end

