-- ==== Sys2Proof/Machine/CueForms.lean ====
section
/-! DEFINITION. The Cue forms and GROW (spec 05 R141 to R152, 11 R277 to R279, 01 R40). -/

namespace Sys2Proof.Machine

/-- The vector register that SB names for the status. -/
def Iss.statusReg (x : Iss) : Option Nat :=
  match x.e.sb with
  | .v k => some k
  | _ => none

/-- A vector register written in one lane. -/
def State.setLane (s : State) (x : Iss) (k lane : Nat) (w : W32) : State :=
  s.modGroup x.gi fun g => g.setV k (oneLane lane) (List.replicate g.width w) 0 g.width

/-- The handle pair and the status of a lane of CUEPUSH (spec 11 R277). -/
def State.pushResult (s : State) (x : Iss) (lane : Nat) (h : W64) (st : W32) : State :=
  let s1 := match x.e.dst, x.e.nw with
    | .v k, false => (s.setLane x k lane (wordOf h 0)).setLane x (k.val + 1) lane (wordOf h 1)
    | _, _ => s
  match x.statusReg with
  | some k => s1.setLane x k lane st
  | none => s1

/-- The entry that eight registers hold in a lane (spec 11 R277). -/
def Iss.entry (x : Iss) (lane : Nat) : List W32 :=
  match x.e.sa with
  | .v k => (List.range 8).map fun j => x.g.v (k.val + j) lane
  | _ => List.replicate 8 0

/-- The entry register whose marker makes CUEPUSH trap (spec 11 R277, 02 R59). -/
def Iss.entryMark (x : Iss) : Option Nat :=
  match x.e.sa with
  | .v k => ((List.range 8).map fun j => k.val + j).find? fun r => x.readers.any fun i => x.g.marked r i
  | _ => none

/-- One lane's push (spec 05 R141, R144, R148 to R150): the state, and whether it found the die full; none where the write to the
unrun area faults. -/
def State.pushLane (s : State) (x : Iss) (lane : Nat) : Option (State × Bool) :=
  if !s.ownsCue x.g.grid then some (s.pushResult x lane 0 stRefused, false)
  else if s.cueState x.g.grid != 0 then
    (s.cueUnrun x.g.grid (x.entry lane)).map fun r => (r.2.pushResult x lane 0 r.1, false)
  else
    match s.cuePlace x.g.core (x.entry lane) with
    | some (h, s1) => some (s1.pushResult x lane h stOk, false)
    | none => some (s, true)

/-- The lanes' pushes in turn, with the lanes that found the die full, and whether no write faulted: what the lanes before such a one
did stands (spec 05 R141, 18 R314). -/
def State.pushLanes (s : State) (x : Iss) : List Nat → State × List Nat × Bool
  | [] => (s, [], true)
  | i :: is => match s.pushLane x i with
    | none => (s, [], false)
    | some (s1, full) =>
      let r := State.pushLanes s1 x is
      (r.1, if full then i :: r.2.1 else r.2.1, r.2.2)

/-- The inline call of the task routine with the lanes that found the die full (spec 05 R150, 12 R299). DESIGN CHOICE: an entry so
handed over takes no slot, and its GEN and bit 7 of FLAGS are the bits that the pusher gave (log 81). -/
def State.inlineCall (s : State) (x : Iss) (full : List Nat) : State :=
  let lanes := maskOf x.g.width fun i => full.contains i
  let target := match s.grid? x.g.grid with
    | some r => r.packet.kobj + 64 + r.kobj.cuetask.setWidth 64
    | none => 0
  let s1 := full.foldl (fun s i => ((List.range 8).zip (x.entry i)).foldl (fun s (j, w) => s.setLane x j i w) s) s
  s1.modGroup x.gi fun g =>
    { (g.setS2 112 (nextPc x.g.pc 8)) with
        exec := lanes, pc := target, inline := { at_ := x.g.pc, exec := x.g.exec, lanes := lanes } :: g.inline }

/-- CUEPUSH (spec 05 R141, R150, R151, 11 R277): a release, before which the group's accesses are performed (04 R132). -/
def cuepushEff (x : Iss) (s : State) : Eff :=
  match x.entryMark with
  | some r => .trap s 0x02 0 (BitVec.ofNat 64 r)
  | none =>
    let r := ((s.settleAll x.gi).addNothing x .cq).pushLanes x x.readers
    if !r.2.2 then .stay (r.1.contextFatal x.g.ctx dispatcherRing noSlot 0x84)
    else if r.2.1.isEmpty then .done r.1 .none
    else if x.g.inline.length < x.g.cdepth.toNat then .jump (r.1.inlineCall x r.2.1)
    else .done (r.2.1.foldl (fun s i => s.pushResult x i 0 stFull) r.1) .none

/-- CUEPUSH. -/
def execCuepush (e : Enc) (s : State) : Host.Outcome State Fault Refusal := issue 0xD0 0 e s cuepushEff

/-- The registers that CUEPOP writes: the entry's eight, unless NW, and the status register. -/
def Iss.popHold (x : Iss) : List Res :=
  (match x.e.dst, x.e.nw with
    | .v k, false => vRegs k 8
    | _, _ => []) ++ (match x.statusReg with
    | some k => [.v k]
    | none => [])

/-- The lanes of a CUEPOP in turn (spec 05 R141, R143, R145, R148, R149): what lands so far, whether an entry was taken, the pops
that wait. A refused one writes its status alone (05 R145, 11 R277). -/
def State.popLanes (s : State) (x : Iss) (o : Op) : List Nat → List Land → Bool → State × List Land × Bool
  | [], ls, t => (s, ls, t)
  | i :: is, ls, t =>
    let zero : List W32 := List.replicate 8 0
    let land (ws : List W32) (st : W32) : List Land := ls ++ cueLands o i x.g.width ws st
    let die := dieOf x.g.core
    let home := homeShard x.g.core
    if !s.ownsCue x.g.grid then State.popLanes s x o is (ls ++ cueStatus o i x.g.width stRefused) t
    else if s.cueState x.g.grid != 0 then State.popLanes s x o is (land zero stEnd) t
    else
      match s.cue.select die home x.g.strict with
      | some (d, sh, en) =>
        State.popLanes { s with cue := s.cue.remove d sh en.slot } x o is (land en.words stOk) true
      | none =>
        let p : Pop := { g := x.gi, lane := i, die := die, shard := home }
        State.popLanes { s with cue := { s.cue with pops := s.cue.pops ++ [p] } } x o is ls t

/-- CUEPOP (spec 05 R141, R143, R145, R151, R152). A reissued one serves the lanes that are left, and the task stays in flight. -/
def cuepopEff (x : Iss) (s : State) : Eff :=
  let lanes := if x.g.cueLeft = 0 then x.readers else lanesOf x.g.cueLeft x.g.width
  let o := x.op (some .cq) .plain [] x.popHold [] .started
  let s0 := s.modGroup x.gi fun g => { g with task := g.task && x.g.cueLeft != 0, cueLeft := 0 }
  let r := s0.popLanes x o lanes [] false
  let tasked := r.1.modGroup x.gi fun g => { g with task := g.task || r.2.2 }
  if r.1.cue.pops.any fun p => p.g = x.gi then
    let s1 := (tasked.addOp x.gi { o with lands := r.2.1 }).modGroup x.gi fun g => { g with wait := .cue }
    .stay (s1.cueSettle x.g.grid)
  else .done ((tasked.addNothing x .cq).modGroup x.gi fun g => r.2.1.foldl Group.land g) .none

/-- CUEPOP. -/
def execCuepop (e : Enc) (s : State) : Host.Outcome State Fault Refusal := issue 0xD1 0 e s cuepopEff

/-- A gain revised: the old gain and the status (spec 05 R146, R149). -/
def State.revise (s : State) (id : W32) (h : W64) (f : W32 → W32) : State × W32 × W32 :=
  match if s.ownsCue id && s.cueState id != 2 then s.cue.lookup h else none with
  | none => (s, 0, stStale)
  | some (d, sh, en) =>
    let upd (e : CueEntry) : CueEntry := if e.slot = en.slot then { e with gain := f e.gain } else e
    ({ s with cue := s.cue.modShard d sh fun q => { q with entries := q.entries.map upd } }, en.gain, stOk)

/-- The lanes of a gain revision in turn. -/
def State.reviseLanes (s : State) (x : Iss) (f : W32 → W32 → W32) : List Nat → State
  | [] => s
  | i :: is =>
    let r := s.revise x.g.grid (x.pair x.e.sa i) (f (x.word x.e.sb i))
    let s1 := match x.e.dst, x.e.nw with
      | .v k, false => (r.1.setLane x k i r.2.1).setLane x (k.val + 1) i r.2.2
      | _, _ => r.1
    State.reviseLanes s1 x f is

/-- A gain with an i32 added, clamped (spec 05 R146). -/
def gainPlus (delta gain : W32) : W32 := BitVec.ofInt 32 (satI ((gain.toNat : Int) + delta.toInt) 0 (2 ^ 32 - 1 : Nat))

/-- GAINADD (spec 05 R146, 11 R277). -/
def execGainadd (e : Enc) (s : State) : Host.Outcome State Fault Refusal :=
  issue 0xD2 0 e s fun x s => .done ((s.addNothing x .cq).reviseLanes x gainPlus x.readers) .none

/-- GAINSET (spec 05 R146, 11 R277). -/
def execGainset (e : Enc) (s : State) : Host.Outcome State Fault Refusal :=
  issue 0xD3 0 e s fun x s => .done ((s.addNothing x .cq).reviseLanes x (fun gain _ => gain) x.readers) .none

/-- RESID with x added, clamped (spec 05 R147). -/
def residPlus (r x : W64) : W64 := BitVec.ofInt 64 (satI (r.toInt + x.toInt) (-(2 ^ 63 : Nat)) (2 ^ 63 - 1 : Nat))

/-- x added to a grid's residual, and closing begun where the sum is below TOL: the status (spec 05 R147 to R149, 11 R278). -/
def State.resadd (s : State) (id : W32) (x : W64) : State × W32 :=
  match s.grid? id with
  | none => (s, stRefused)
  | some r =>
    if !s.ownsCue id then (s, stRefused)
    else if r.cuestate = 2 then (s, stClosed)
    else
      let y := residPlus r.resid x
      let s1 := s.modGrid id fun g => { g with resid := y }
      (if r.cuestate = 0 && y.toInt < r.tol.toInt then s1.beginClosing id else s1, stOk)

/-- RESADD (spec 05 R147, 11 R278): a release, before which the group's accesses are performed (05 R145). -/
def resaddEff (x : Iss) (s : State) : Eff :=
  let r := ((s.settleAll x.gi).addNothing x .cq).resadd x.g.grid (x.pair x.e.sa x.ul true)
  match x.e.dst, x.e.nw with
  | .s k, false => .done (r.1.modGroup x.gi fun g => g.setS k r.2) .none
  | _, _ => .done r.1 .none

/-- RESADD. -/
def execResadd (e : Enc) (s : State) : Host.Outcome State Fault Refusal := issue 0xD4 0 e s resaddEff

/-- GROW (spec 01 R40, R42, 11 R279): the previous team count and the status. -/
def growEff (x : Iss) (s : State) : Eff :=
  match s.grid? x.g.grid with
  | none => .done s .none
  | some r =>
    let fixed := r.kobj.persistent
    let n := x.word x.e.sa x.ul
    let s1 := if fixed then s else s.modGrid x.g.grid fun g => { g with gcnt := if g.gcnt < n then n else g.gcnt }
    match x.e.dst, x.e.nw with
    | .s k, false =>
      .done (s1.modGroup x.gi fun g => (g.setS k r.gcnt).setS (k.val + 1) (if fixed then stRefused else stOk)) .none
    | _, _ => .done s1 .none

/-- GROW. -/
def execGrow (e : Enc) (s : State) : Host.Outcome State Fault Refusal := issue 0xD5 0 e s growEff

/-- CUE_WRITE_OUT (spec 05 R148): of the heap's owner, when it is closing and no task is in flight. -/
def execCueWriteOut (s : State) : Host.Outcome State Fault Refusal :=
  match s.cue.owner with
  | none => .next s
  | some id =>
    if !s.writeOutDue id then .next s
    else
      let r := s.cueWriteOut id
      match s.grid? id with
      | some g => .next (if r.2 then r.1 else r.1.contextFatal g.ctx dispatcherRing noSlot 0x84)
      | none => .next s

end Sys2Proof.Machine
end

