-- ==== Sys2Proof/Machine/Fetch.lean ====
section
/-! DEFINITION. Fetching an instruction, and what a word that is none does (spec 06 R153, R154, R176). -/

namespace Sys2Proof.Machine

/-- Whether a group holds the fetch block of its PC. -/
def Group.hasBlock (g : Group) : Bool :=
  match g.fetched with
  | some b => b.1 = g.pc.toNat / 32
  | none => false

/-- The bytes of a fetch block from an offset, zeros after its end. -/
def blockBytes (bs : List Byte) (off : Nat) : List Byte := (List.range 32).map fun i => (bs[off + i]?).getD 0

/-- The bytes at a group's PC in the block it holds. -/
def Group.instrBytes (g : Group) : List Byte :=
  match g.fetched with
  | some b => blockBytes b.2 (g.pc.toNat % 32)
  | none => []

/-- The instruction at a group's PC, from the block it holds. -/
def Group.nextInstr (g : Group) : Option (Except Reject Instr) :=
  if g.hasBlock then some (decodeBytes g.instrBytes) else none

/-- The fetch block of a group's PC read through its translation (spec 06 R154): the group holds it, or takes a memory fault at
the fetched address, or is held for translation, or waits for a walker. The second part says whether it holds it. -/
def State.fetchBlock (s : State) (gi : Nat) : State × Bool :=
  match s.groups[gi]? with
  | none => (s, false)
  | some g =>
    let block := g.pc.toNat / 32
    let r := s.resolve gi g false .fetch .g (BitVec.ofNat 64 (32 * block)) 32
    match r.2 with
    | .ok p => ((r.1.modGroup gi fun h => { h with fetched := some (block, r.1.readAt p 32) }), true)
    | .error (.mem kind _) => ((r.1.reelPoison g false (.mem kind g.pc)).takeTrap gi false 0x04 kind g.pc none, false)
    | .error (.noKey _) => (r.1.takeTrap gi false 0x04 0x05 g.pc none, false)
    | .error (.absent _ level) => (r.1.holdGroup gi false AccK.fetch.code g.pc level, false)
    | .error (.wait reason budgets) => (r.1.modGroup gi fun h => { h with wait := .again reason s.cycle budgets }, false)

/-- The ILLEGAL trap of a word that no form of the map takes: a reserved SUB, or a length its OPC excludes (spec 06 R176); a fault of an
engine operation goes before it (10 R249 item 6). A word of LNEST's opcode has no CH (06 R173). -/
def State.rejectTrap (s : State) (gi : Nat) (r : Reject) : State :=
  match s.groups[gi]? with
  | none => s
  | some g =>
    let w := BitVec.ofNat 256 (leNat g.instrBytes)
    let mine : Why := match r with
      | .reservedSub => (0x05, 10)
      | .badLength => (0x06, 0)
    let c := (firstWhy (mine :: pcWhy g.pc (ilen w))).getD mine
    let ch := w.extractLsb' 2 8 != 0xCB && w.getLsbD 15
    let s1 := match g.due with
      | d :: _ => s.deliverDue gi ch d
      | [] => s.takeTrap gi ch 0x01 c.1 (BitVec.ofNat 64 (c.1 + 256 * c.2)) none
    (s1.countIssue gi g).noteIssued gi g false none

/-- Every ILLEGAL reason of a loop nest at its issue (spec 06 R153, R173, R174, 11 R275). The high register of an S base must be zero; the
reason of one that is not is not given (log 71), nor a field for a PFORM that does not fit (log 79). -/
def nestIssueWhy (g : Group) (e : NestEnc) : List Why :=
  let high (inS : Bool) (b : Fin 128) (bit : Nat) : List Why := why (inS && g.s (b.val + 1) != 0) 0x17 bit
  pcWhy g.pc 32 ++ nestWhy e ++ high e.ds e.dbase 21 ++ high e.abs e.abase 28 ++ high e.abs e.bbase 35 ++ why (e.eop = 0x0E && pformOf g.pform = 0) 0x17 0

/-- Why a loop nest cannot issue yet (spec 01 R43, 02 R57): held registers, or a full counter when it is legal. -/
def nestStall (gi : Nat) (g : Group) (e : NestEnc) (s : State) : Nat :=
  if g.spilling || blocked (s.heldRegs gi g) (nestRegs e) [] then 2
  else if (firstWhy (nestIssueWhy g e)).isNone && 255 ≤ g.cnt .ln then 3 else 0

/-- A form of the map as an instruction at issue. -/
def issOf (gi : Nat) (g : Group) (i : Instr) : Option Iss :=
  i.code.map fun c => { gi := gi, g := g, opc := c.1, sub := c.2.1, e := c.2.2 }

/-- Why a group whose next instruction is i cannot issue it in this cycle: a reason of spec 21 R382, 0 when it can. -/
def instrStall (gi : Nat) (g : Group) (i : Instr) (s : State) : Nat :=
  match i with
  | .lnest e => nestStall gi g e s
  | i => match issOf gi g i with
    | some x => stallWhy x s
    | none => 0

/-- Whether a group takes part in issue at all: one that has exited does only for what it has to issue again. -/
def Group.active (g : Group) : Bool := g.live && (!g.gone || !g.redo.isEmpty) && !g.stopped

/-- The instruction that a group would issue next: the first of those it has to issue again, or that at its PC in the block it holds. -/
def Group.upcoming (g : Group) : Option (Except Reject Instr) :=
  match g.redo with
  | w :: _ => some (decodeBytes (leBytes 32 w.toNat))
  | [] => g.nextInstr

/-- Whether a group waits for nothing but what its issue needs. -/
def Group.atIssue (g : Group) : Bool :=
  match g.wait with
  | .ready | .again _ _ _ => true
  | _ => false

/-- Why a group that waits for nothing does not issue (spec 01 R43, 21 R382): 0 when it could; 1 while its fetch is to be made. -/
def State.readyReason (s : State) (gi : Nat) (g : Group) : Nat :=
  match g.upcoming with
  | none => 1
  | some (.error _) => 0
  | some (.ok i) => instrStall gi g i s

/-- Whether what turned a group back still holds it: in the cycle in which it did, and later as long as it stands: a budget (18 R326), every
walker in use (19 R334), a full engine queue (11 R263). -/
def State.heldStill (s : State) (g : Group) : Bool :=
  match g.wait with
  | .again r at_ budgets =>
    decide (at_ = s.cycle) || (match r with
      | 8 => s.walkersBusy (dieOf g.core)
      | 10 => decide (8 ≤ ((s.cores[g.core]?).map fun c => c.mxq.length).getD 0)
      | _ => budgets.any fun b => s.heldOn b.1 b.2)
  | _ => false

/-- Whether a group's next instruction is still to be fetched. -/
def Group.unfetched (g : Group) : Bool := g.upcoming.isNone

/-- Whether nothing but its own fetch, which is made at its turn, keeps a group from issuing (spec 01 R43). -/
def State.unheld (s : State) (gi : Nat) (g : Group) : Bool := g.atIssue && !s.heldStill g && s.readyReason gi g ≤ 1

/-- Why a group does not issue (spec 01 R43, 21 R382): 0 when it could. A wait that its fetch meets is one for the fetch, the lowest reason. -/
def State.reasonOf (s : State) (gi : Nat) (g : Group) : Nat :=
  match g.wait with
  | .barrier _ _ => 5
  | .sleep _ => 6
  | .held _ => if g.unfetched then 1 else 7
  | .pair => 11
  | .queue => 12
  | .rv => 13
  | .regs => 14
  | .cue => 15
  | .stock => 16
  | .again r _ _ => if s.heldStill g then (if g.unfetched then 1 else r) else s.readyReason gi g
  | .ready => s.readyReason gi g

/-- The issue that occupies a quadrant's slot in the present cycle (spec 01 R16). -/
def State.issuing (s : State) (core quad : Nat) : Option Issued :=
  ((s.cores[core]?).bind fun c => (c.issued[quad]?).join).filter fun i => i.at_ = s.cycle || (i.two && i.at_ + 1 = s.cycle)

/-- The instruction of a group that occupies its quadrant's slot in the present cycle. -/
def State.issueOf (s : State) (gi : Nat) (g : Group) : Option Issued := (s.issuing g.core g.quad).filter fun i => i.g = gi

/-- Why a group is stalled in the present cycle (spec 21 R382); 0 where it issues, is ready or has exited. -/
def State.cycleReason (s : State) (gi : Nat) (g : Group) : Nat :=
  if !g.active && g.gone || (s.issueOf gi g).isSome then 0 else s.reasonOf gi g

end Sys2Proof.Machine
end

