-- ==== Sys2Proof/Machine/FloatForms.lean ====
section
/-! DEFINITION. Float arithmetic, comparisons and conversions of vectors (spec 09 R218 to R222). -/

namespace Sys2Proof.Machine

/-- The format of a form's type. -/
def Iss.fmt (x : Iss) : Fmt := fmtOf x.e.ty x.e.prec

/-- An element of an operand as a value. -/
def Iss.fval (x : Iss) (a : Src) (i el : Nat) : Val := decodeF x.fmt (x.el a i el)

/-- A value as the form's result: encode(e, TYPE, SAT, RM) (spec 09 R219). -/
def Iss.enc (x : Iss) (v : Val) : Nat := encodeV x.fmt x.e.sat x.e.rm v

/-- A float form of one operand that rounds with its own case distinctions. -/
def unaryF (f : Nat → Fmt → Bool → Nat → Nat → Val → Nat) : Iss → State → Eff := elementwise fun x i el =>
  f x.e.ty x.fmt x.e.sat x.e.rm (x.el x.e.sa i el) (x.fval x.e.sa i el)

/-- A value negated but for a NaN, which keeps its sign (spec 03 R76). -/
def subV (a b : Val) (rm : Nat) : Val := if a.isNan || b.isNan then nanResult [a, b] else addV a b.neg rm

/-- A value times 2^b (spec 09 R222). Beyond 5000 either way b changes no result of any format. -/
def scaleV (a : Val) (b : Int) : Val :=
  match a with
  | .fin n m x => .fin n m (x + satI b (-5000) 5000)
  | v => v

/-- A condition between the operands of FCMP on a lane (spec 09 R221). -/
def Iss.fcompares (x : Iss) (i : Nat) : Bool :=
  condFloat x.e.cond (decodeF x.fmt (x.elem x.e.sa x.e.ty x.e.prec false i 0)) (decodeF x.fmt (x.elem x.e.sb x.e.ty x.e.prec false i 0))

/-- A conversion: the source elements have STYPE and SPREC (spec 09 R218). -/
def convertEff : Iss → State → Eff := elementwise fun x i el =>
  convert x.e.sty x.e.sprec x.e.ty x.e.prec x.e.sat x.e.rm (x.elem x.e.sa x.e.sty x.e.sprec x.e.pk i el)

/-- FADD (spec 09 R219). -/
def execFadd (e : Enc) (s : State) : Host.Outcome State Fault Refusal := issue 0x70 0 e s (elementwise fun x i el =>
  x.enc (addV (x.fval x.e.sa i el) (x.fval x.e.sb i el) x.e.rm))
/-- FSUB (spec 09 R219). -/
def execFsub (e : Enc) (s : State) : Host.Outcome State Fault Refusal := issue 0x71 0 e s (elementwise fun x i el =>
  x.enc (subV (x.fval x.e.sa i el) (x.fval x.e.sb i el) x.e.rm))
/-- FMUL (spec 09 R219). -/
def execFmul (e : Enc) (s : State) : Host.Outcome State Fault Refusal := issue 0x72 0 e s (elementwise fun x i el =>
  x.enc (mulV (x.fval x.e.sa i el) (x.fval x.e.sb i el)))
/-- FFMA (spec 09 R219). -/
def execFfma (e : Enc) (s : State) : Host.Outcome State Fault Refusal := issue 0x73 0 e s (elementwise fun x i el =>
  x.enc (fmaV (x.fval x.e.sa i el) (x.fval x.e.sb i el) (x.fval x.e.sc i el) x.e.rm))
/-- FMIN (spec 09 R220). -/
def execFmin (e : Enc) (s : State) : Host.Outcome State Fault Refusal := issue 0x74 0 e s (elementwise fun x i el =>
  minMaxF x.fmt false (x.el x.e.sa i el) (x.el x.e.sb i el))
/-- FMAX (spec 09 R220). -/
def execFmax (e : Enc) (s : State) : Host.Outcome State Fault Refusal := issue 0x75 0 e s (elementwise fun x i el =>
  minMaxF x.fmt true (x.el x.e.sa i el) (x.el x.e.sb i el))
/-- FCMP (spec 09 R221). -/
def execFcmp (e : Enc) (s : State) : Host.Outcome State Fault Refusal := issue 0x76 0 e s (pure1 fun x _ => x.deliver false fun i => bit64 (x.fcompares i))
/-- FCLASS (spec 09 R221). -/
def execFclass (e : Enc) (s : State) : Host.Outcome State Fault Refusal := issue 0x77 0 e s (pure1 fun x _ =>
  x.deliver false fun i => BitVec.ofNat 64 (2 ^ classBit x.fmt (x.el x.e.sa i 0)))
/-- FDIV (spec 09 R219). -/
def execFdiv (e : Enc) (s : State) : Host.Outcome State Fault Refusal := issue 0x78 0 e s (elementwise fun x i el =>
  divV x.fmt x.e.sat x.e.rm (x.fval x.e.sa i el) (x.fval x.e.sb i el))
/-- FSQRT (spec 09 R219). -/
def execFsqrt (e : Enc) (s : State) : Host.Outcome State Fault Refusal := issue 0x79 0 e s (unaryF fun _ f sat rm _ v => sqrtV f sat rm v)
/-- FRCP (spec 09 R219). -/
def execFrcp (e : Enc) (s : State) : Host.Outcome State Fault Refusal := issue 0x7A 0 e s (unaryF fun _ f sat rm _ v => divV f sat rm (.fin false 1 0) v)
/-- FRSQ (spec 09 R219). -/
def execFrsq (e : Enc) (s : State) : Host.Outcome State Fault Refusal := issue 0x7B 0 e s (unaryF fun _ f sat rm _ v => rsqrtV f sat rm v)
/-- FEXP2 (spec 09 R219). -/
def execFexp2 (e : Enc) (s : State) : Host.Outcome State Fault Refusal := issue 0x7C 0 e s (unaryF exp2V)
/-- FLOG2 (spec 09 R219). -/
def execFlog2 (e : Enc) (s : State) : Host.Outcome State Fault Refusal := issue 0x7D 0 e s (unaryF log2V)
/-- FSIN (spec 09 R219). -/
def execFsin (e : Enc) (s : State) : Host.Outcome State Fault Refusal := issue 0x7E 0 e s (unaryF sinV)
/-- FCOS (spec 09 R219). -/
def execFcos (e : Enc) (s : State) : Host.Outcome State Fault Refusal := issue 0x7F 0 e s (unaryF cosV)
/-- VCVT (spec 09 R218). -/
def execVcvt (e : Enc) (s : State) : Host.Outcome State Fault Refusal := issue 0x6A 0 e s convertEff
/-- FCVT (spec 09 R218). -/
def execFcvt (e : Enc) (s : State) : Host.Outcome State Fault Refusal := issue 0x80 0 e s convertEff
/-- FRND (spec 09 R222). -/
def execFrnd (e : Enc) (s : State) : Host.Outcome State Fault Refusal := issue 0x81 0 e s (elementwise fun x i el => rndV x.fmt x.e.rm (x.fval x.e.sa i el))
/-- FSCL (spec 09 R222). With PK = 1 b is one i32 word of its lane for each of its elements: the rule does not say which word each has
(log 73). -/
def execFscl (e : Enc) (s : State) : Host.Outcome State Fault Refusal := issue 0x82 0 e s (elementwise fun x i el =>
  x.enc (scaleV (x.fval x.e.sa i el) (x.word x.e.sb i).toInt))

end Sys2Proof.Machine
end

