-- ==== Sys2Proof/Machine/Matrix.lean ====
section
/-! DEFINITION. The matrix engine: tiles, MXMAC, MXPAIR, MXRD, MXWR, MXZ, power tokens (spec 03 R86 to R91, 11 R260 to R266, 13
R303, R304). -/

namespace Sys2Proof.Machine

/-- The bytes of a memory from an address on, in one pass. -/
def spanAux : Nat → Nat → Memory → List Byte
  | 0, _, _ => []
  | n + 1, a, [] => Memory.blank :: spanAux n (a + 1) []
  | n + 1, a, c :: m => if c.1 = a then c.2 :: spanAux n (a + 1) m else Memory.blank :: spanAux n (a + 1) (c :: m)

/-- n bytes of a memory from an address. -/
def Memory.span (m : Memory) (a n : Nat) : List Byte := spanAux n a (m.dropWhile fun c => c.1 < a)

/-- The entries of bytes from an address on, in canonical form. -/
def cellsOf : Nat → List Byte → Memory
  | _, [] => []
  | a, b :: bs => if b = Memory.blank then cellsOf (a + 1) bs else (a, b) :: cellsOf (a + 1) bs

/-- A memory with a range replaced, in canonical form. -/
def Memory.patch (m : Memory) (a : Nat) (bs : List Byte) : Memory :=
  (m.filter fun c => c.1 < a) ++ cellsOf a bs ++ m.filter fun c => a + bs.length ≤ c.1

/-- The words of bytes, four by four. -/
def words4 : List Byte → List W32
  | a :: b :: c :: d :: l => (d ++ c ++ b ++ a) :: words4 l
  | _ => []

/-- The words of an accumulator slot (spec 02 R54). -/
def Group.slotWords (g : Group) (t : Nat) : List W32 := words4 (Memory.span g.acc (65536 * t) 65536)

/-- The words of a slot replaced. -/
def Group.setSlot (g : Group) (t : Nat) (ws : List W32) : Group := { g with acc := Memory.patch g.acc (65536 * t) (bytesOf ws) }

/-- The elements of a tile as patterns: of 32 bits, or of 96 bits over three slots (spec 02 R54). -/
def Group.tileElems (g : Group) (t : Nat) (wide : Bool) : List Nat :=
  if wide then
    List.zipWith (fun a bc => a.toNat + bc) (g.slotWords t)
      (List.zipWith (fun b c => b.toNat * 2 ^ 32 + c.toNat * 2 ^ 64) (g.slotWords (t + 1)) (g.slotWords (t + 2)))
  else (g.slotWords t).map BitVec.toNat

/-- A tile's elements replaced. -/
def Group.setTile (g : Group) (t : Nat) (wide : Bool) (es : List Nat) : Group :=
  let part (j : Nat) : List W32 := es.map fun e => BitVec.ofNat 32 (e / 2 ^ (32 * j))
  if wide then ((g.setSlot t (part 0)).setSlot (t + 1) (part 1)).setSlot (t + 2) (part 2) else g.setSlot t (part 0)

/-- Whether the tile has 96 bits. -/
def MxArgs.wide (a : MxArgs) : Bool := 2 ≤ a.mode
/-- TILE. -/
def MxArgs.tile (a : MxArgs) : Nat := a.f 98 96
/-- Bytes of an element of A and B. -/
def MxArgs.es (a : MxArgs) : Nat := if a.mode = 3 || (a.mode = 0 && a.f 127 123 < 0x10) then 2 else 1

/-- An operand element: an integer with its signedness, or a float or binary8 code (spec 03 R86, R87). -/
def MxArgs.elem (a : MxArgs) (ty prec sgn code : Nat) : Val :=
  if 1 ≤ a.mode && a.mode ≤ 3 then ofIntV (if sgn = 1 then sextN code (8 * a.es) else code) else decodeF (fmtOf ty prec) code

/-- The elements of rows or columns of bytes. -/
def MxArgs.elems (a : MxArgs) (ty prec sgn : Nat) (bs : List Byte) : List (List Val) :=
  (List.range 128).map fun r => (List.range (a.rb / a.es)).map fun k =>
    a.elem ty prec sgn (leNat ((bs.drop (a.rb * r + a.es * k)).take a.es))

/-- The value of a chunk's products, added exactly (spec 03 R89). -/
def chunkSum (ps : List Val) : Val :=
  if ps.any Val.isNan then defaultNan
  else match ps with
    | [] => .fin false 0 0
    | p :: rest => rest.foldl (fun a b => addV a b 0) p

/-- The chunks of sixteen products. -/
def chunks16 : Nat → List Val → List (List Val)
  | 0, _ => []
  | n + 1, l => if l.isEmpty then [] else l.take 16 :: chunks16 n (l.drop 16)

/-- An f32 element updated by its products (spec 03 R89). -/
def floatCell (ps : List Val) (old : Nat) : Nat :=
  let f := fmtOf 10 0
  (chunks16 (ps.length / 16 + 1) ps).foldl (fun acc c =>
    let t := decodeF f (encodeV f false 0 (chunkSum c))
    encodeV f false 0 (addV (decodeF f acc) t 0)) old

/-- An integer value of a product. -/
def intOfVal (v : Val) : Int :=
  match v with
  | .fin n m _ => signedM n m
  | _ => 0

/-- One product of the fixed-point mode truncated at the binary point, and whether that loses anything (spec 03 R91). -/
def fixProduct (bp : Int) (v : Val) : Int × Bool :=
  match v with
  | .fin n m x =>
    let y := x + bp
    let q := if 0 ≤ y then m <<< y.toNat else m >>> (-y).toNat
    let lost := y < 0 && m % 2 ^ (-y).toNat != 0
    (signedM n q, lost || 2 ^ 95 ≤ q)
  | _ => (0, true)

/-- A 96-bit element updated in the fixed-point mode, and whether its window flag is set (spec 03 R91). -/
def fixCell (bp : Int) (ps : List Val) (old : Nat) : Nat × Bool :=
  let qs := ps.map (fixProduct bp)
  let y := sextN old 96 + (qs.map Prod.fst).sum
  (wrapN y 96, qs.any Prod.snd || y < -(2 ^ 95 : Nat) || (2 ^ 95 : Nat) ≤ y)

/-- An element updated by its products: the new pattern and whether the window flag is set (spec 11 R262). -/
def MxArgs.cell (a : MxArgs) (ps : List Val) (old : Nat) : Nat × Bool :=
  match a.mode with
  | 0 => (floatCell ps old, false)
  | 1 => (wrapN ((old : Int) + (ps.map intOfVal).sum) 32, false)
  | 4 => fixCell (sextN (a.f 106 99) 8) ps old
  | _ => (wrapN ((old : Int) + (ps.map intOfVal).sum) 96, false)

/-- A row of a tile updated. -/
def MxArgs.row (a : MxArgs) (ra : List Val) (sa : Int) (cols : List (List Val × Int)) (old : List Nat) : List (Nat × Bool) :=
  List.zipWith (fun (cb : List Val × Int) o => a.cell (List.zipWith (fun p q => scaleV (mulV p q) (sa + cb.2)) ra cb.1) o) cols old

/-- The rows of a tile updated where the operation updates them (spec 11 R262). -/
def MxArgs.update (a : MxArgs) (cols : List (List Val × Int)) : Nat → List (List Val × Int) → List Nat → List (Nat × Bool)
  | _, [], _ => []
  | r, x :: xs, es =>
    let old := es.take 128
    (if a.rows.getLsbD r then a.row x.1 x.2 cols old else old.map fun o => (o, false)) ++ MxArgs.update a cols (r + 1) xs (es.drop 128)

/-- Exponents of a scale block, from byte k on (spec 03 R88); all 0 without one. -/
def scalesAt (bs : List Byte) (k : Nat) : List Int := (List.range 128).map fun i => ((bs[k + i]?).getD 0).toInt

/-- A group's tile updated by an operation whose operands are at hand: bytes of A and B, row and column exponents (spec 11
R262). -/
def Group.mxUpdate (g : Group) (a : MxArgs) (abs bbs : List Byte) (sa sb : List Int) : Group :=
  let rows := (a.elems (a.f 127 123) (a.f 117 115) (a.f 108 108) abs).zip sa
  let cols := (a.elems (a.f 122 118) (a.f 114 112) (a.f 107 107) bbs).zip sb
  let es := a.update cols 0 rows (g.tileElems a.tile a.wide)
  let g1 := g.setTile a.tile a.wide (es.map Prod.fst)
  if a.mode = 4 && es.any Prod.snd then { g1 with window := g1.window ||| (if a.tile = 0 then 1 else 2) } else g1

/-- The bytes of A: the registers read at issue, or 128 rows within one operand bank (spec 11 R260). -/
def State.mxA (s : State) (gi : Nat) (g : Group) (a : MxArgs) : Except Flt (List Byte) :=
  if a.f 94 94 = 0 then .ok (a.aRegs.flatMap bytesOf)
  else if !a.aAddr.getLsbD 19 || 2 ^ 15 < a.aAddr.toNat % 2 ^ 15 + 128 * a.rb then .error (.mem 0x03 (a.aAddr.setWidth 64))
  else (s.readRange gi g true .engRead .s (a.aAddr.setWidth 64) (128 * a.rb)).2

/-- The bytes of B. -/
def State.mxB (s : State) (gi : Nat) (g : Group) (a : MxArgs) : Except Flt (List Byte) :=
  (s.readRange gi g true .engRead .b (a.bAddr.setWidth 64) (128 * a.rb)).2

/-- The scale block; zeros without one. -/
def State.mxScales (s : State) (gi : Nat) (g : Group) (a : MxArgs) : Except Flt (List Byte) :=
  if a.f 95 95 = 0 then .ok (List.replicate 256 0) else (s.readRange gi g true .engRead .s (a.scAddr.setWidth 64) 256).2

/-- An MXMAC's effect on its group, or its fault (spec 11 R260, R262). -/
def State.mxMac (s : State) (gi : Nat) (g : Group) (a : MxArgs) : Except Flt Group := do
  let abs ← s.mxA gi g a
  let bbs ← s.mxB gi g a
  let sc ← s.mxScales gi g a
  .ok (g.mxUpdate a abs bbs (scalesAt sc 0) (scalesAt sc 128))

/-- The effect on one half of a pair: A and the row exponents are the even half's (spec 11 R265). -/
def State.mxHalf (s : State) (ei : Nat) (eg : Group) (ea : MxArgs) (hi : Nat) (hg : Group) (ha : MxArgs) : Except Flt Group := do
  let abs ← s.mxA ei eg ea
  let es ← s.mxScales ei eg ea
  let bbs ← s.mxB hi hg ha
  let hs ← s.mxScales hi hg ha
  .ok (hg.mxUpdate ha abs bbs (scalesAt es 0) (scalesAt hs 128))

/-- Rows that the lanes of a mask own (spec 11 R260). -/
def rowsOf (m : Mask) (w : Nat) : BitVec 128 :=
  BitVec.ofNat 128 (((List.range 128).filter fun r => m.getLsbD (r / (128 / w))).map fun r => 2 ^ r).sum

/-- The words of each row of A in registers (spec 11 R260). -/
def Iss.rowWords (x : Iss) (k rb : Nat) : List (List W32) :=
  let rl := 128 / x.g.width
  (List.range 128).map fun r => (List.range (rb / 4)).map fun b => x.g.v (k + rb / 4 * (r % rl) + b) (r / rl)

/-- The registers of A, if it lies in registers. -/
def Iss.aRegs (x : Iss) : List Nat :=
  match x.e.sa with
  | .v k => if x.e.ctlF 94 94 = 0 && !(x.opc = 0xC1 && x.g.half) then
      (List.range (128 / x.g.width * (if x.e.ctlF 111 109 = 3 then 16 else 32) / 4)).map fun j => k.val + j else []
  | _ => []

/-- The operands of a matrix operation, read at issue (spec 11 R260). -/
def Iss.mxArgs (x : Iss) : MxArgs :=
  let rb := if x.e.ctlF 111 109 = 3 then 16 else 32
  { ctl := x.e.ctl, rows := rowsOf x.qual x.g.width,
    aRegs := match x.e.sa with
      | .v k => if x.e.ctlF 94 94 = 0 then x.rowWords k rb else []
      | _ => [],
    aAddr := if x.e.ctlF 94 94 = 1 then x.word x.e.sa x.ul else 0, bAddr := x.word x.e.sb x.ul,
    scAddr := if x.e.ctlF 95 95 = 1 then x.word x.e.sc x.ul else 0 }

/-- A core changed. -/
def State.modCore (s : State) (core : Nat) (f : Core → Core) : State := { s with cores := s.cores.modify core f }

/-- A cluster changed. -/
def State.modCluster (s : State) (die cl : Nat) (f : Cluster → Cluster) : State :=
  { s with dies := s.dies.modify die fun d => { d with clusters := d.clusters.modify cl f } }

/-- The cluster of a core within its die (spec 00 R10). -/
def clusterOf (core : Nat) : Nat := core % 36 / 4

/-- A matrix form issued in the cluster of a core (spec 11 R264). The rule does not say which forms these are: MXMAC, MXPAIR and the
start of a schoolbook BMUL, for which a cluster needs its token, count, and no other operation of the engine (log 66). -/
def State.mxIssued (s : State) (core : Nat) : State :=
  s.modCluster (dieOf core) (clusterOf core) fun c => { c with lastMx := s.cycle }

/-- A queue with an operation that arrives: behind those that came earlier, and among those of one cycle by rank (spec 11 R263,
R268). -/
def enqueue (q : Queued) : List Queued → List Queued
  | [] => [q]
  | p :: ps => if p.at_ = q.at_ && q.rank < p.rank then q :: p :: ps else p :: enqueue q ps

/-- An operation of a group queued at its core's engine; a lower quadrant goes first among those of one cycle (spec 11 R263). -/
def State.queueMx (s : State) (core gi id rank : Nat) : State :=
  s.modCore core fun c => { c with mxq := enqueue { g := gi, op := id, at_ := s.cycle, rank := rank } c.mxq }

/-- An operation added, and queued at its core's engine (spec 11 R263). -/
def State.addMx (s : State) (x : Iss) (o : Op) : State := (s.addOp x.gi o).queueMx x.g.core x.gi x.g.opSeq x.g.quad

/-- The checks of a matrix form at issue: markers in A's registers, then alignment (spec 11 R260). -/
def mxChecks (x : Iss) (s : State) (f : Eff) : Eff :=
  let a := x.mxArgs
  match x.aRegs.find? fun k => (lanesOf x.qual x.g.width).any fun i => x.g.marked k i with
  | some k => .trap s 0x02 0 (BitVec.ofNat 64 k)
  | none => alignedAll s 32 [a.aAddr.setWidth 64, a.bAddr.setWidth 64] <| alignedAll s 16 [a.scAddr.setWidth 64] f

/-- MXMAC (spec 11 R260 to R263). -/
def mxmacEff (x : Iss) (s : State) : Eff :=
  mxChecks x s <|
    .done (((s.addMx x (x.op (some .mx) (.mxmac x.mxArgs) [] [] (x.aRegs.map Res.v))).mxIssued x.g.core).countEv x.gi 11 1) .none

/-- MXMAC. -/
def execMxmac (e : Enc) (s : State) : Host.Outcome State Fault Refusal := issue 0xC0 0 e s mxmacEff

/-- MXPAIR: the group waits until it is paired or has failed (spec 11 R265). -/
def mxpairEff (x : Iss) (s : State) : Eff :=
  mxChecks x s <|
    let hold : List Res := match x.e.dst, x.e.nw with
      | .s k, false => [.s k]
      | _, _ => []
    let s1 := s.addOp x.gi (x.op (some .mx) (.mxpair x.mxArgs x.g.half) [] hold (x.aRegs.map Res.v))
    let w : PairWait := { g := x.gi, op := x.g.opSeq, at_ := s.cycle, paired := false, reissued := !x.g.redo.isEmpty }
    let s2 := (s1.modGroup x.gi fun g => { g with wait := .pair }).modTeam x.g fun t =>
      if x.g.half then { t with pairOdd := t.pairOdd ++ [w] } else { t with pairEven := t.pairEven ++ [w] }
    .stay ((s2.mxIssued x.g.core).countEv x.gi 11 1)

/-- MXPAIR. -/
def execMxpair (e : Enc) (s : State) : Host.Outcome State Fault Refusal := issue 0xC1 0 e s mxpairEff

/-- MXRD (spec 11 R266). -/
def mxrdEff (x : Iss) (s : State) : Eff :=
  let offs := x.readers.map fun i => (i, (x.word x.e.sa i).toNat)
  alignedAll s 4 (offs.map fun p => BitVec.ofNat 64 p.2) <|
    match x.e.dst, x.e.nw with
    | .v k, false => .done (s.addMx x (x.op (some .mx) (.mxrd offs (x.e.sb = .int 1) k) [] (vRegs k 1))) .none
    | _, _ => .done (s.addMx x (x.op (some .mx) (.mxrd offs (x.e.sb = .int 1) 0))) .none

/-- MXRD. -/
def execMxrd (e : Enc) (s : State) : Host.Outcome State Fault Refusal := issue 0xC2 0 e s mxrdEff

/-- MXWR (spec 11 R266). -/
def mxwrEff (x : Iss) (s : State) : Eff :=
  let ws := x.readers.map fun i => ((x.word x.e.sa i).toNat, x.word x.e.sb i)
  alignedAll s 4 (ws.map fun p => BitVec.ofNat 64 p.1) <| .done (s.addMx x (x.op (some .mx) (.mxwr ws))) .none

/-- MXWR. -/
def execMxwr (e : Enc) (s : State) : Host.Outcome State Fault Refusal := issue 0xC3 0 e s mxwrEff

/-- MXZ (spec 11 R266). -/
def mxzEff (x : Iss) (s : State) : Eff :=
  match x.e.dst with
  | .a t => .done (s.addMx x (x.op (some .mx) (.mxz t (x.e.sa = .int 1)))) .none
  | _ => .done s .none

/-- MXZ. -/
def execMxz (e : Enc) (s : State) : Host.Outcome State Fault Refusal := issue 0xC4 0 e s mxzEff

/-- Whether an operation is one of R263's class (spec 11 R263). -/
def Op.isMx (o : Op) : Bool :=
  match o.body with
  | .mxmac _ | .mxpair _ _ | .mxrd _ _ _ | .mxwr _ | .mxz _ _ | .cres _ _ _ _ _ => true
  | .bmul _ _ _ _ _ _ _ _ _ _ _ school => school
  | _ => false

/-- Whether an operation of that class has had its effect: the engine's own have it when they start. -/
def Op.mxPast (o : Op) : Bool :=
  match o.body with
  | .cres _ _ _ _ _ | .bmul _ _ _ _ _ _ _ _ _ _ _ _ => o.phase = .done
  | _ => o.phase = .started || o.phase = .done

/-- Whether every earlier operation of R263's class has had its effect. -/
def Group.mxTurn (g : Group) (id : Nat) : Bool := (g.before id).all fun o => !o.isMx || o.mxPast

/-- Whether every earlier operation of R263's class is complete (spec 09 R236, 11 R269). -/
def Group.mxIdle (g : Group) (id : Nat) : Bool := (g.before id).all fun o => !o.isMx || o.phase = .done

/-- The words at A offsets read into lanes, or the fault of the first that lies outside (spec 11 R266). -/
def Group.readTile (g : Group) (offs : List (Nat × Nat)) (flag : Bool) : Except Flt (List (Nat × W32)) :=
  offs.mapM fun p =>
    let slot := p.2 / 65536
    let fault : Except Flt (Nat × W32) := .error (.mem 0x03 (BitVec.ofNat 64 p.2))
    if flag then
      if (slot = 0 || slot = 3) && slot + 3 ≤ g.accSlots then .ok (p.1, if g.window.getLsbD (slot / 3) then 1 else 0) else fault
    else if slot < g.accSlots then .ok (p.1, BitVec.ofNat 32 (leNat (Memory.read g.acc p.2 4))) else fault

/-- Words written at A offsets, or the fault of the first that lies outside. -/
def Group.writeTile (g : Group) (ws : List (Nat × W32)) : Except Flt Group :=
  match ws.find? fun p => 65536 * g.accSlots ≤ p.1 with
  | some p => .error (.mem 0x03 (BitVec.ofNat 64 p.1))
  | none => .ok (ws.foldl (fun g p => { g with acc := Memory.write g.acc p.1 (leBytes 4 p.2.toNat) }) g)

/-- MXZ's effect. -/
def Group.zeroTile (g : Group) (t : Nat) (wide : Bool) : Group :=
  let n := if wide then 3 else 1
  { g with acc := g.acc.filter fun c => c.1 < 65536 * t || 65536 * (t + n) ≤ c.1,
           window := if wide then g.window &&& (if t = 0 then 2 else 1) else g.window }

/-- What a matrix operation of one group does when it starts: the group and what lands at its completion. -/
def State.mxRun (s : State) (gi : Nat) (g : Group) (o : Op) : Except Flt (Group × List Land) :=
  match o.body with
  | .mxmac a => (s.mxMac gi g a).map fun g => (g, [])
  | .mxrd offs flag k => (g.readTile offs flag).map fun vs =>
      (g, if o.hold.isEmpty then [] else
        [.v k (maskOf g.width fun i => vs.any fun p => p.1 = i)
          ((List.range g.width).map fun i => ((vs.find? fun p => p.1 = i).map Prod.snd).getD 0) (BitVec.ofNat 8 g.width)])
  | .mxwr ws => (g.writeTile ws).map fun g => (g, [])
  | .mxz t wide => .ok (g.zeroTile t wide, [])
  | _ => .ok (g, [])

/-- An operation started: what it holds against writes is read (spec 11 R260). -/
def Group.started (g : Group) (id : Nat) (lands : List Land) : Group :=
  g.modOp id fun o => { o with phase := .started, lands := lands, holdW := [] }

/-- The landing of a status in the register that an operation holds. -/
def Op.status (o : Op) (w : W32) : List Land :=
  o.hold.filterMap fun r => match r with
    | .s k => some (.s k w)
    | _ => none

/-- An engine operation that faults completes, its status register FAULT (spec 11 R258). -/
def State.mxFault (s : State) (gi id : Nat) (f : Flt) : State :=
  match (s.groups[gi]?).bind fun g => g.op? id with
  | none => s
  | some o => (Run.flt s [] f .engRead).finish s gi id (o.status 0x12)

/-- Whether a schoolbook BMUL is under way on a core's engine, which serves its operations one after another (spec 11 R263, R269). -/
def State.mxBusy (s : State) (core : Nat) : Bool :=
  s.groups.any fun g => g.live && g.core = core && g.ops.any fun o => o.phase = .started && (match o.body with
    | .bmul _ _ _ _ _ _ _ _ _ _ _ school => school
    | _ => false)

/-- Whether the head of a core's engine queue can be served in this cycle: it has arrived before, so that every operation of its cycle
stands in the queue, and the engine is free (spec 11 R263). -/
def State.mxServes (s : State) (core : Nat) : Bool :=
  !s.mxBusy core && (((s.cores[core]?).bind fun c => c.mxq.head?).any fun q => q.at_ < s.cycle)

/-- The head of a core's engine queue. -/
def State.mxHead (s : State) (core : Nat) : Option (Nat × Nat × Group × Op) :=
  match (s.cores[core]?).bind fun c => c.mxq.head? with
  | none => none
  | some q => (s.opAt q.g q.op).map fun (g, o) => (q.g, q.op, g, o)

/-- The head taken off. -/
def State.mxPop (s : State) (core : Nat) : State := s.modCore core fun c => { c with mxq := c.mxq.drop 1 }

/-- One half of a pair ended at its start: updated, or faulted. -/
def State.pairHalf (s : State) (gi id : Nat) (o : Op) (r : Except Flt Group) : State :=
  match r with
  | .ok g => s.setGroup gi (g.started id (o.status 0))
  | .error f => s.mxFault gi id f

/-- Whether an operation is half of a pair. -/
def Op.isPair (o : Op) : Bool :=
  match o.body with
  | .mxpair _ _ => true
  | _ => false

/-- Whether the heads of a pair's queues are two halves of one team whose turn has come (spec 11 R265). -/
def State.pairReady (s : State) (core : Nat) : Bool :=
  let even := core / 2 * 2
  match s.mxHead even, s.mxHead (even + 1) with
  | some (_, eid, eg, eo), some (_, oid, og, oo) =>
    eo.isPair && oo.isPair && eg.mxTurn eid && og.mxTurn oid && eg.grid = og.grid && eg.team = og.team
  | _, _ => false

/-- Both halves at the heads of their queues, with a token, start (spec 11 R265). -/
def State.startPair (s : State) (core : Nat) : State :=
  let even := core / 2 * 2
  match s.mxHead even, s.mxHead (even + 1) with
  | some (ei, eid, eg, eo), some (oi, oid, og, oo) =>
    match eo.body, oo.body with
    | .mxpair ea _, .mxpair oa _ =>
      if s.hasToken even && s.pairReady even && s.mxServes even && s.mxServes (even + 1) then
        let re := s.mxHalf ei eg ea ei eg ea
        let ro := s.mxHalf ei eg ea oi og oa
        (((s.mxPop even).mxPop (even + 1)).pairHalf ei eid eo re).pairHalf oi oid oo ro
      else s
    | _, _ => s
  | _, _ => s

/-- MATRIX_OPERATION_START at a core (spec 11 R262, R263, R265, R269): the head of its queue starts, in a cycle after that of its arrival;
input: the core. -/
def execMatrixOperationStart (s : State) : Host.Outcome State Fault Refusal :=
  match s.input with
  | .index core =>
    match s.mxHead core with
    | none => .next s
    | some (gi, id, g, o) =>
      if o.phase != .queued || !s.mxServes core then .next s
      else
        match o.body with
        | .mxpair _ _ => .next (s.startPair core)
        | .bmul _ _ _ _ _ _ _ _ _ _ _ _ =>
          if s.hasToken core && g.mxIdle id then
            .next (((s.mxPop core).modGroup gi fun g => g.started id []).mxIssued core)
          else .next s
        | _ =>
          if !g.mxTurn id then .next s
          else
            match s.mxRun gi g o with
            | .ok (g1, lands) => .next ((s.mxPop core).setGroup gi (g1.started id lands))
            | .error f => .next ((s.mxPop core).mxFault gi id f)
  | _ => .next s

/-- The field of the control word in which the halves of a pair may differ: TILE and ASRC (spec 11 R265). -/
def pairMask : BitVec 54 := BitVec.ofNat 54 (2 ^ 54 - 1 - 7 * 2 ^ 22 - 2 ^ 20)

/-- A group that waits in an MXPAIR goes on: after it, or where a restore issued it again, at the instruction at which it stopped (19
R341). One that has exited does not wait. -/
def Group.pairEnds (g : Group) (w : PairWait) (cycle : Nat) : Group :=
  if g.wait = .pair && w.op + 1 = g.opSeq then (if w.reissued then g.wake cycle else g.resume 16 cycle) else g

/-- A waiting MXPAIR ended with a status; its group goes on (spec 11 R265). -/
def State.endPair (s : State) (w : PairWait) (status : W32) : State :=
  match (s.groups[w.g]?).bind fun g => g.op? w.op with
  | none => s
  | some o => (s.finishOp w.g w.op (o.status status) none).modGroup w.g fun g => g.pairEnds w s.cycle

/-- A paired half enters its engine's queue, and its group goes on. DESIGN CHOICE: it stands behind every operation that its core's quadrants
issue in that cycle, also where they issue after the pairing: R265 does not order these (log 85). -/
def State.enterPair (s : State) (w : PairWait) : State :=
  match s.groups[w.g]? with
  | none => s
  | some g => (s.queueMx g.core w.g w.op 4).modGroup w.g fun g => g.pairEnds w s.cycle

/-- Room in a core's engine queue (spec 11 R263). -/
def State.mxRoom (s : State) (core : Nat) : Bool := ((s.cores[core]?).map fun c => decide (c.mxq.length < 8)).getD false

/-- The control word of a waiting MXPAIR. -/
def State.pairCtl (s : State) (w : PairWait) : BitVec 54 :=
  match ((s.groups[w.g]?).bind fun g => g.op? w.op).map Op.body with
  | some (.mxpair a _) => a.ctl
  | _ => 0

/-- MXPAIRs that wait for a half whose core has been reset end with PEER_RESET, and their signal is dropped (spec 11 R265, 19 R341). -/
def State.peerReset (s : State) (ti : Nat) : State :=
  match s.teams[ti]? with
  | none => s
  | some t =>
    match t.lost with
    | none => s
    | some h =>
      let s1 := { s with teams := s.teams.set ti { t with pairEven := [], pairOdd := [] } }
      (if h then t.pairEven else t.pairOdd).foldl (fun s w => (s.endPair w 0x23).sigDrop (t.core + if h then 1 else 0) 2) s1

/-- Whether a waiting MXPAIR can be paired: it has been, or is less than 512 cycles old (spec 11 R265). -/
def State.pairs (s : State) (w : PairWait) : Bool := w.paired || s.cycle < w.at_ + 512

/-- The oldest MXPAIRs of a team's halves that are not paired yet (spec 11 R265). -/
def Team.nextPair (t : Team) : Option (PairWait × PairWait) :=
  match t.pairEven.find? (!·.paired), t.pairOdd.find? (!·.paired) with
  | some a, some b => some (a, b)
  | _, _ => none

/-- The paired MXPAIRs of a team that wait for room in the engines' queues, oldest first (spec 11 R265). -/
def Team.waitingPair (t : Team) : Option (PairWait × PairWait) :=
  match t.pairEven.find? (·.paired), t.pairOdd.find? (·.paired) with
  | some a, some b => some (a, b)
  | _, _ => none

/-- Room for a pair in the queues of both its engines (spec 11 R265). -/
def State.pairRoom (s : State) (t : Team) : Bool := s.mxRoom t.core && s.mxRoom (t.core + 1)

/-- The pairing that a team can make now (spec 11 R265). -/
def State.pairsNow (s : State) (t : Team) : Option (PairWait × PairWait) := t.nextPair.filter fun p => s.pairs p.1 && s.pairs p.2

/-- The paired MXPAIRs of a team that can enter their queues now. -/
def State.entersNow (s : State) (t : Team) : Option (PairWait × PairWait) := t.waitingPair.filter fun _ => s.pairRoom t

/-- A team without two of its waiting MXPAIRs. -/
def Team.withoutPair (t : Team) (a b : PairWait) : Team := { t with pairEven := t.pairEven.erase a, pairOdd := t.pairOdd.erase b }

/-- A team in which two of its waiting MXPAIRs are paired. -/
def Team.withPaired (t : Team) (a b : PairWait) : Team :=
  let set (x w : PairWait) : PairWait := if w = x then { w with paired := true } else w
  { t with pairEven := t.pairEven.map (set a), pairOdd := t.pairOdd.map (set b) }

/-- Two MXPAIRs paired (spec 11 R265): a mismatch ends both; else they enter their queues, or wait for room, as behind a pair that does. -/
def State.pairUp (s : State) (ti : Nat) (t : Team) (a b : PairWait) : State :=
  let gone : State := { s with teams := s.teams.set ti (t.withoutPair a b) }
  if (s.pairCtl a ^^^ s.pairCtl b) &&& pairMask != 0 then (gone.endPair a 0x21).endPair b 0x21
  else if s.pairRoom t && t.waitingPair.isNone then (gone.enterPair a).enterPair b
  else { s with teams := s.teams.set ti (t.withPaired a b) }

/-- MXPAIR_PAIRING in a team (spec 11 R265): the oldest unpaired MXPAIRs of its halves are paired as soon as both exist; else a paired pair
enters the queues as soon as both have room; input: the team's index. -/
def execMxpairPairing (s : State) : Host.Outcome State Fault Refusal :=
  match s.input with
  | .index ti =>
    match s.teams[ti]? with
    | none => .next s
    | some t =>
      match s.pairsNow t with
      | some p => .next (s.pairUp ti t p.1 p.2)
      | none => match s.entersNow t with
        | some p =>
          .next ((({ s with teams := s.teams.set ti (t.withoutPair p.1 p.2) } : State).enterPair p.1).enterPair p.2)
        | none => .next (s.peerReset ti)
  | _ => .next s

/-- MXPAIR_TIMEOUT of a group: 512 cycles unpaired (spec 11 R265, 21 R363 PAIRTO); input: the group. -/
def execMxpairTimeout (s : State) : Host.Outcome State Fault Refusal :=
  match s.input with
  | .index gi =>
    match s.groups[gi]? with
    | none => .next s
    | some g =>
      match s.teamOf g with
      | none => .next s
      | some t =>
        match (if g.half then t.pairOdd else t.pairEven).find? fun w => w.g = gi && !w.paired && w.at_ + 512 ≤ s.cycle with
        | none => .next s
        | some w =>
          let s1 := s.modTeam g fun t => { t with pairEven := t.pairEven.erase w, pairOdd := t.pairOdd.erase w }
          .next ((s1.reel g.core 0x21 (some g.ctx) g.gslot).endPair w 0x20)
  | _ => .next s

/-- Whether a group's next instruction is an MXPAIR, which takes no place in the engine's queue at its issue (spec 11 R263). -/
def Group.pairsNext (g : Group) : Bool :=
  match g.upcoming with
  | some (.ok (.mxpair _)) => true
  | _ => false

/-- Whether a group has a use for a token: it stalls for one, or, in a cluster whose burst ends in the cycle, its next form lacks only that,
be it that the group has issued in the cycle (spec 11 R264, 13 R304; log 28). -/
def State.groupWants (s : State) (released : Bool) (gi : Nat) (g : Group) : Bool :=
  g.active && g.atIssue
  && if released then s.reasonOf gi g = 9 && (g.pairsNext || s.mxRoom g.core) else s.cycleReason gi g = 9

/-- Whether the operation at the head of a core's engine queue lacks only a token to start (spec 11 R265, R269). -/
def State.headWants (s : State) (core : Nat) : Bool :=
  match s.mxHead core with
  | some (_, id, g, o) => match o.body with
    | .bmul _ _ _ _ _ _ _ _ _ _ _ _ => s.mxServes core && g.mxIdle id
    | .mxpair _ _ => s.pairReady core && s.mxServes core && s.mxServes (partner core)
    | _ => false
  | none => false

/-- Whether a cluster has a use for a token: a group of it, or an operation at the head of a queue (spec 11 R264, R265, R269, 13 R304; log
28). -/
def State.wantsToken (s : State) (die cl : Nat) : Bool :=
  let here (core : Nat) : Bool := dieOf core = die && clusterOf core = cl
  let released := (s.dies[die]?).any fun d => d.released.contains cl
  (((List.range s.groups.length).zip s.groups).any fun (gi, g) => here g.core && s.groupWants released gi g)
  || (List.range s.cores.length).any fun core => here core && s.headWants core

/-- The first of a set of clusters in ring order (spec 11 R264). -/
def ringFirst (cands : List Nat) (start : Nat) : Option Nat := ((List.range 9).map fun i => (start + i) % 9).find? fun c => cands.contains c

/-- A token given to a cluster (spec 11 R264, 21 R363 TOKEN). -/
def State.giveToken (s : State) (die cl : Nat) : State :=
  ((s.modCluster die cl fun _ => { token := true, taken := s.cycle, lastMx := s.cycle }).reel (144 + die) 0x20 none (cl * 2 ^ 61)
    |> fun s => { s with dies := s.dies.modify die fun d => { d with lastGrant := some cl } })

/-- Tokens handed on by the clusters that released them (spec 13 R304). -/
def handOn (die : Nat) (acc : State × List Nat) (from_ : Nat) : State × List Nat :=
  match ringFirst acc.2 (from_ + 1) with
  | some c => (acc.1.giveToken die c, acc.2.erase c)
  | none => acc

/-- Free tokens given to stalled clusters, n at most (spec 13 R304). -/
def spread (die : Nat) : Nat → State × List Nat → State
  | 0, acc => acc.1
  | n + 1, acc =>
    let start := match (acc.1.dies[die]?).bind Die.lastGrant with
      | some c => c + 1
      | none => 0
    match ringFirst acc.2 start with
    | some c => spread die n (acc.1.giveToken die c, acc.2.erase c)
    | none => acc.1

/-- Tokens of a die (spec 20 TOKCFG). -/
def State.tokens (s : State) (die : Nat) : Nat := s.tokcfg.toNat / 16 ^ die % 16

/-- The grants of a die in a cycle: released tokens are handed on, then every free one goes to a cluster that wants it (spec 13
R304). -/
def State.grantTokens (s : State) (die : Nat) : State :=
  match s.dies[die]? with
  | none => s
  | some d =>
    let holds (s : State) (c : Nat) : Bool := (((s.dies[die]?).bind fun d => d.clusters[c]?).map Cluster.token).getD true
    let cands := (List.range 9).filter fun c => !holds s c && s.wantsToken die c
    let first := (((List.range 9).filter fun c => d.released.contains c).foldl (handOn die) (s, cands))
    let held := ((List.range 9).filter fun c => holds first.1 c).length
    let s1 := spread die (s.tokens die - held) first
    { s1 with dies := s1.dies.modify die fun d => { d with released := [], decided := s.cycle + 1 } }

/-- A burst ended: the token is released (spec 11 R264). -/
def State.endBurst (s : State) (die cl : Nat) (ended : Cluster → Bool) : State :=
  match (s.dies[die]?).bind fun d => d.clusters[cl]? with
  | none => s
  | some c =>
    if c.token && ended c then
      let s1 := s.modCluster die cl fun c => { c with token := false }
      { s1 with dies := s1.dies.modify die fun d => { d with released := d.released ++ [cl] } }
    else s

/-- BURST_END_LIMIT: 8,192 cycles (spec 11 R264); input: die and cluster. -/
def execBurstEndLimit (s : State) : Host.Outcome State Fault Refusal :=
  match s.input with
  | .index2 die cl => .next (s.endBurst die cl fun c => c.taken + 8192 ≤ s.cycle)
  | _ => .next s

/-- BURST_END_IDLE: 64 cycles without a matrix form (spec 11 R264); input: die and cluster. -/
def execBurstEndIdle (s : State) : Host.Outcome State Fault Refusal :=
  match s.input with
  | .index2 die cl => .next (s.endBurst die cl fun c => c.lastMx + 64 ≤ s.cycle)
  | _ => .next s

end Sys2Proof.Machine
end

