-- ==== Sys2Proof/Machine/QueueForms.lean ====
section
/-! DEFINITION. Stage queues, the heap engine and register blocks (spec 10 R254 to R257). -/

namespace Sys2Proof.Machine

/-- The queue of a team that a number names. -/
def Team.queue (t : Team) (q : Nat) : List QEntry := (t.queues[q]?).getD []

/-- The push that a queue can take: the first in arrival order, while the queue and its group's allowance have room (spec 10
R254; log 26). -/
def Team.pushable (t : Team) (q : Nat) (idx : Nat → Nat) : Option QPush :=
  match t.pushWait.find? fun p => p.q = q with
  | none => none
  | some p =>
    let es := t.queue q
    if 16 ≤ es.length || t.allow ≤ (es.filter fun e => e.by_ = idx p.g).length then none else some p

/-- The index in its team of a group. -/
def State.idxOf (s : State) (gi : Nat) : Nat := ((s.groups[gi]?).map Group.idx).getD 0

/-- A popped entry in the destination of its group (spec 10 R254). -/
def Group.take (g : Group) (p : QPop) (e : QEntry) : Group :=
  match p.dst, p.nw with
  | .v k, false => g.setV k p.lanes e.val 0 g.width
  | .s k, false => g.setS k ((e.val[0]?).getD 0)
  | _, _ => g

/-- The registers that a pop writes. -/
def QPop.writes (p : QPop) : List Res :=
  match p.dst, p.nw with
  | .v k, false => vRegs k 1
  | .s k, false => sRegs k 1
  | _, _ => []

/-- One transfer of a queue: the oldest waiting pop takes the oldest entry, unless a copy has still to land in the register that it writes
(10 R251), or else the first waiting push is appended, a release, before which its group's accesses are performed (spec 10 R254, 04 R124). -/
def State.queueStep (s : State) (ti q : Nat) : Option State :=
  match s.teams[ti]? with
  | none => none
  | some t =>
    match t.queue q, (t.popWait.find? fun p => p.q = q).filter fun p => s.unguarded p.g p.writes with
    | e :: es, some p =>
      let s1 : State := { s with teams := s.teams.set ti { t with queues := t.queues.set q es, popWait := t.popWait.erase p } }
      some (s1.modGroup p.g fun g => (g.take p e).resume 8 s.cycle)
    | es, _ =>
      match t.pushable q s.idxOf with
      | none => none
      | some p =>
        let e : QEntry := { val := p.val, by_ := s.idxOf p.g }
        let f (t : Team) : Team := { t with queues := t.queues.set q (es ++ [e]), pushWait := t.pushWait.erase p }
        let s0 := s.settleAll p.g
        some (({ s0 with teams := s0.teams.modify ti f } : State).modGroup p.g fun g => g.resume 8 s.cycle)

/-- Transfers of a queue as long as one can be made, within a number of them. -/
def State.queueServe (s : State) (ti q : Nat) : Nat → State
  | 0 => s
  | n + 1 => match s.queueStep ti q with
    | some s1 => State.queueServe s1 ti q n
    | none => s

/-- Waiting pops served that a copy into their registers held back (spec 10 R251, R254). -/
def State.servePops (s : State) : State :=
  (List.range s.teams.length).foldl (fun s ti =>
    ((((s.teams[ti]?).map Team.popWait).getD []).map QPop.q).foldl (fun s q => s.queueServe ti q 1024) s) s

/-- A group that waits at a queue, and what that sets in motion. -/
def queueEff (x : Iss) (s : State) (f : Team → Team) : Eff :=
  match s.teamIdx x.g.grid x.g.team with
  | none => .done s .none
  | some ti =>
    let s1 := s.modGroup x.gi fun g => { g with wait := .queue }
    .stay (({ s1 with teams := s1.teams.modify ti f } : State).queueServe ti (x.num x.e.sa) 1024)

/-- QPUSH: lanes that do not qualify push 0; with U = 1 every lane pushes the value (spec 10 R254). -/
def qpushEff (x : Iss) (s : State) : Eff :=
  let val := (List.range x.g.width).map fun i =>
    if x.e.u then x.word x.e.sb x.ul else if x.qual.getLsbD i then x.word x.e.sb i else 0
  queueEff x s fun t => { t with pushWait := t.pushWait ++ [{ g := x.gi, q := x.num x.e.sa, val := val }] }

/-- QPUSH. -/
def execQpush (e : Enc) (s : State) : Host.Outcome State Fault Refusal := issue 0xB4 0 e s qpushEff

/-- QPOP (spec 10 R254). -/
def qpopEff (x : Iss) (s : State) : Eff :=
  queueEff x s fun t =>
    { t with popWait := t.popWait ++ [{ g := x.gi, q := x.num x.e.sa, lanes := x.qual, dst := x.e.dst, nw := x.e.nw }] }

/-- QPOP. -/
def execQpop (e : Enc) (s : State) : Host.Outcome State Fault Refusal := issue 0xB5 0 e s qpopEff

/-- The number of a scalar register that a field names with code 256 + S. -/
def outReg (a : Src) : Nat :=
  match a with
  | .s k => k
  | _ => 0

/-- A scalar pair's landing. -/
def pairLands (k : Nat) (w : W64) : List Land := [.s k (wordOf w 0), .s (k + 1) (wordOf w 1)]

/-- HALLOC: its pair and its status are held until it completes (spec 10 R255). -/
def hallocEff (x : Iss) (s : State) : Eff :=
  let dst : Option Nat := match x.e.dst, x.e.nw with
    | .s k, false => some k.val
    | _, _ => none
  let st := outReg x.e.sb
  .done (s.addOp x.gi (x.op (some .hp) (.halloc (x.word x.e.sa x.ul) dst st) []
    (((dst.map fun k => sRegs k 2).getD []) ++ [.s st]))) .none

/-- HALLOC. -/
def execHalloc (e : Enc) (s : State) : Host.Outcome State Fault Refusal := issue 0xB6 0 e s hallocEff

/-- HFREE (spec 10 R255). -/
def hfreeEff (x : Iss) (s : State) : Eff := .done (s.addOp x.gi (x.op (some .hp) (.hfree (x.pair x.e.sa x.ul)))) .none

/-- HFREE. -/
def execHfree (e : Enc) (s : State) : Host.Outcome State Fault Refusal := issue 0xB7 0 e s hfreeEff

/-- Statuses of the heap forms (spec 10 R256). -/
def stHpEmpty : W32 := 0x10
def stBadSize : W32 := 0x11

/-- HALLOC's block: its address and the context's record with it; or a status (spec 10 R255). -/
def State.halloc (s : State) (ctx : W32) (size : Nat) : Except W32 (Nat × Nat × Ctx) :=
  if size = 0 || 2 ^ 26 < size then .error stBadSize
  else
    match (s.arena ctx).take (classOf size) with
    | none => .error stHpEmpty
    | some (a, c) => .ok (a, classOf size, { c with halloced := c.halloced ++ [a] })

/-- What a HALLOC that faults lands: no address is stated, and the status is FAULT (spec 11 R258; log 3). -/
def State.hallocFault (s : State) (dst : Option Nat) (st : Nat) : State × List Land :=
  let d := s.draw
  let d2 := d.2.draw
  (d2.2, ((dst.map fun k => pairLands k (Config.freeWord d.1 ++ Config.freeWord d2.1)).getD []) ++ [.s st stFault])

/-- HALLOC completes: the block's header is written, then address and status land (spec 10 R255). One whose header write faults takes no
block (log 50). -/
def hallocDone (s : State) (gi : Nat) (g : Group) (o : Op) (size : W32) (dst : Option Nat) (st : Nat) : State :=
  let res (a : W64) (w : W32) : List Land := ((dst.map fun k => pairLands k a).getD []) ++ [.s st w]
  match s.halloc g.ctx size.toNat with
  | .error w => (s.setCtx (s.arena g.ctx)).finishOp gi o.id (res 0 w) none
  | .ok (a, cls, c) =>
    let h := headerFor 0 ((2 ^ (cls + 6) - 16) / 4) true true
    let r := runOf (((Eng.start s gi g o).write .g (BitVec.ofNat 64 a) h.bytes).map fun e =>
      ({ e with s := e.s.setCtx c }, res (BitVec.ofNat 64 a) 0))
    match r with
    | .flt s1 w f k =>
      let q := s1.hallocFault dst st
      (Run.flt q.1 w f k).finish s gi o.id q.2
    | r => r.finish s gi o.id []

/-- HFREE completes: a block that HALLOC returned and HFREE has not freed returns to its class; any other address but 0 is
recorded (spec 10 R255, 21 R363 BADFREE). -/
def hfreeDone (s : State) (gi : Nat) (g : Group) (o : Op) (a : W64) : State :=
  let s1 := s.setCtx (s.arena g.ctx)
  let s2 := if (s1.ctx g.ctx).halloced.contains a.toNat then s1.freeBlocks g.ctx [a.toNat]
    else if a = 0 then s1
    else s1.reel g.core 0x16 (some g.ctx) g.gslot (some (0, 0, a))
  s2.finishOp gi o.id [] none

/-- HEAP_OPERATION_COMPLETION (spec 10 R255); input: group and operation. -/
def execHeapOperationCompletion (s : State) : Host.Outcome State Fault Refusal :=
  match s.input with
  | .index2 gi id =>
    match s.opAt gi id with
    | none => .next s
    | some (g, o) =>
      if o.phase != .queued then .next s
      else
        match o.body with
        | .halloc size dst st => .next (hallocDone s gi g o size dst st)
        | .hfree a => .next (hfreeDone s gi g o a)
        | _ => .next s
  | _ => .next s

/-- The pool of a quadrant for a role in a half's pools. -/
def poolAt (quad role : Nat) : Nat := 16 * quad + role

/-- The pool that a group claims from. -/
def Group.pool (g : Group) : Nat := poolAt g.quad g.role.toNat

/-- The first claim in arrival order that its pool can meet, where no earlier claim waits at that pool (spec 10 R257). -/
def State.claimable (s : State) (t : Team) : Option (Claim × Group) :=
  t.claims.findSome? fun c => match s.groups[c.g]? with
    | none => none
    | some g =>
      let first := (t.claims.find? fun d => match s.groups[d.g]? with
        | some h => h.pool = g.pool && h.half = g.half
        | none => false)
      if first = some c && c.n ≤ ((t.half g.half).pools[g.pool]?).getD 0 then some (c, g) else none

/-- A group with n blocks of new registers, marked as unwritten (spec 10 R257). -/
def Group.grow (g : Group) (n : Nat) : Group :=
  { g with vregs := g.vregs ++ (List.range (8 * n)).map fun j => VReg.unwritten (g.vregs.length + j) g.width }

/-- One claim met. -/
def State.claimStep (s : State) (ti : Nat) : Option State :=
  match s.teams[ti]? with
  | none => none
  | some t =>
    (s.claimable t).map fun (c, g) =>
      let h := t.half g.half
      let t1 := ({ t with claims := t.claims.erase c }).setHalf g.half { h with pools := h.pools.modify g.pool (· - c.n) }
      ({ s with teams := s.teams.set ti t1 } : State).modGroup c.g fun g => (g.grow c.n).resume 8 s.cycle

/-- Claims met as long as one can be, within a number of them. -/
def State.claimServe (s : State) (ti : Nat) : Nat → State
  | 0 => s
  | n + 1 => match s.claimStep ti with
    | some s1 => State.claimServe s1 ti n
    | none => s

/-- RGIVE: the highest blocks of the group join the pool of a role of its quadrant (spec 10 R257; log 27). -/
def rgiveEff (x : Iss) (s : State) : Eff :=
  let n := x.num x.e.sb
  let r := x.num x.e.sa
  let s1 := s.setGroup x.gi { x.g with vregs := x.g.vregs.take (x.g.vregs.length - 8 * n) }
  match s1.teamIdx x.g.grid x.g.team with
  | none => .done s1 .none
  | some ti =>
    let s2 : State := { s1 with teams := s1.teams.modify ti fun t =>
        let h := t.half x.g.half
        if r < 16 then t.setHalf x.g.half { h with pools := h.pools.modify (poolAt x.g.quad r) (· + n) } else t }
    .done (s2.claimServe ti s2.groups.length) .none

/-- RGIVE. -/
def execRgive (e : Enc) (s : State) : Host.Outcome State Fault Refusal := issue 0xB8 0 e s rgiveEff

/-- RCLAIM (spec 10 R257). -/
def rclaimEff (x : Iss) (s : State) : Eff :=
  match s.teamIdx x.g.grid x.g.team with
  | none => .done s .none
  | some ti =>
    let s1 : State := { s.setGroup x.gi { x.g with wait := .regs } with
        teams := s.teams.modify ti fun t => { t with claims := t.claims ++ [{ g := x.gi, n := x.num x.e.sa }] } }
    .stay (s1.claimServe ti s1.groups.length)

/-- RCLAIM. -/
def execRclaim (e : Enc) (s : State) : Host.Outcome State Fault Refusal := issue 0xB9 0 e s rclaimEff

end Sys2Proof.Machine
end

