-- ==== Sys2Proof/Machine/Schedule.lean ====
section
/-! DEFINITION. Time, and which group issues (spec 01 R43 to R45, 02 R63, 21 R378; log 2). -/

namespace Sys2Proof.Machine

/-- Whether a group can be selected (spec 01 R43): an instruction not yet fetched is fetched at its turn. -/
def State.ready (s : State) (gi : Nat) (g : Group) : Bool := g.active && s.unheld gi g

/-- The age of a group (spec 01 R44): a stalled one's is counted from the cycle in which it becomes ready. -/
def Group.age (g : Group) (cycle : Nat) : Nat := if g.stalled then 0 else cycle - g.since

/-- The entry of R44's order in which a group stands, lowest first. -/
def Group.rank (g : Group) (cycle : Nat) : Nat :=
  if g.trap then 0 else if 2048 ≤ g.age cycle then 1 else 5 - g.prio.toNat

/-- Whether group a goes before group b of its quadrant (spec 01 R44). -/
def Group.goesBefore (cycle : Nat) (a b : Group) : Bool :=
  let ra := a.rank cycle
  let rb := b.rank cycle
  ra < rb || (ra = rb && (b.age cycle < a.age cycle || (a.age cycle = b.age cycle && a.slot < b.slot)))

/-- The first of the groups in an order. -/
def firstBy (lt : Group → Group → Bool) : List (Nat × Group) → Option (Nat × Group)
  | [] => none
  | x :: xs => match firstBy lt xs with
    | none => some x
    | some y => if lt y.2 x.2 then some y else some x

/-- The groups of the device with their indices. -/
def State.indexed (s : State) : List (Nat × Group) := (List.range s.groups.length).zip s.groups

/-- Whether a core's attempts to issue in this cycle have been made: what follows them has happened, the die's grants of tokens (spec 13
R304) or the core's sample (21 R380). -/
def State.attempted (s : State) (core : Nat) : Bool :=
  ((s.dies[dieOf core]?).any fun d => d.decided = s.cycle + 1) || (s.cores[core]?).any fun c => c.smp.done = s.cycle + 1

/-- Cycles for which a group's next instruction may take its quadrant's slot (spec 01 R16): two for a vector instruction of 64 lanes, and
for one that is still to be fetched. -/
def Group.slotCycles (g : Group) : Nat :=
  let two : Bool := match g.upcoming with
    | none => true
    | some (.error _) => false
    | some (.ok i) => (i.code.map fun c => !c.2.2.u).getD false
  if g.width = 64 && two then 2 else 1

/-- Cycles, with the present one, since a group's last issue or since it became ready: those of its quadrant in which it has had no slot
(spec 01 R44). -/
def State.unserved (s : State) (gi : Nat) (g : Group) : Nat :=
  let served := !g.stalled && (((s.cores[g.core]?).bind fun c => (c.issued[g.quad]?).join).any fun i => i.late.contains (gi, g.since))
  g.age s.cycle + if served then 0 else 1

/-- Whether a ready group at trap level takes the slot from the open chain of a group h: were h to issue, it would get none in four cycles
of its quadrant (spec 01 R44, 02 R63). -/
def State.owed (s : State) (h : Group) (gi : Nat) (g : Group) : Bool := g.trap && 4 < s.unserved gi g + h.slotCycles

/-- The group whose open chain holds the slot of a quadrant, one at trap level before any other (spec 02 R63). -/
def State.chainHolder (s : State) (here : List (Nat × Group)) : Option (Nat × Group) :=
  firstBy (Group.goesBefore s.cycle) (here.filter fun x => x.2.chain.isSome && x.2.atIssue)

/-- The group that a quadrant selects (spec 01 R44), once a cycle, and in none that the second pass of an instruction takes (R16): an
open chain keeps the slot from groups that are not at trap level, and a trap-level group
takes it where it is owed one, or the chain cannot use it (R63). DESIGN CHOICE: an open chain keeps the slot for as long as its next
member stalls, though R45 promises every ready group an issue within 4,096 cycles, since R44 and R63 end its hold with the chain
alone; among several open chains that of a trap-level group comes first (log 2). -/
def State.pick (s : State) (core quad : Nat) : Option (Nat × Group) :=
  if s.attempted core || (s.issuing core quad).isSome then none
  else
    let here := s.indexed.filter fun x => x.2.core = core && x.2.quad = quad && x.2.active
    let able := here.filter fun x => s.ready x.1 x.2
    match s.chainHolder here with
    | none => firstBy (Group.goesBefore s.cycle) able
    | some h =>
      match firstBy (Group.goesBefore s.cycle) (able.filter fun x => x.1 != h.1 && s.owed h.2 x.1 x.2) with
      | some t => some t
      | none => if s.ready h.1 h.2 then some h else firstBy (Group.goesBefore s.cycle) (able.filter fun x => x.2.trap)

/-- The group that issues where no move is laid down: among those the quadrants select, the one that has waited longest, then
the first in the state's list (log 2). -/
def State.pickAny (s : State) : Option (Nat × Group) :=
  let quads := (s.groups.map fun g => (g.core, g.quad)).eraseDups
  firstBy (fun a b => b.age s.cycle < a.age s.cycle) (quads.filterMap fun q => s.pick q.1 q.2)

/-- Whether no quadrant of some cores has a group left that could issue in this cycle. -/
def State.quiet (s : State) (p : Nat → Bool) : Bool := s.groups.all fun g => !p g.core || (s.pick g.core g.quad).isNone

/-- The PMC that a group's instruction of the present cycle has written, with its count before (spec 19 R344). -/
def State.written (s : State) (gi : Nat) (g : Group) : Option (Nat × BitVec 48) :=
  (s.issueOf gi g).bind fun i => if i.at_ = s.cycle then i.pmc else none

/-- The count of counter k before the increments of a cycle: that before the write of an instruction, where one wrote it. -/
def Group.countBefore (g : Group) (written : Option (Nat × BitVec 48)) (k : Nat) : BitVec 48 :=
  match written with
  | some (j, b) => if j = k then b else (g.pmc[k]?).getD 0
  | none => (g.pmc[k]?).getD 0

/-- How often counter k of a group has to count in a cycle. -/
def Group.pending (g : Group) (k : Nat) : Nat := ((g.pend.filter fun p => p.1 = k).map fun p => p.2.2).sum

/-- The increments of a cycle taken by counter k of a group: a value that an instruction has written in it stands; where the count before
passes 2^48 - 1, the OVF bit is set and one PMCOVF record written (spec 19 R343, R344, 21 R363). -/
def State.commitCounter (s : State) (gi : Nat) (written : Option (Nat × BitVec 48)) (k : Nat) : State :=
  match s.groups[gi]? with
  | none => s
  | some g =>
    let sum := (g.countBefore written k).toNat + g.pending k
    let h := { g with pend := g.pend.filter fun p => p.1 != k,
                      pmc := if written.any fun w => w.1 = k then g.pmc else g.pmc.set k (BitVec.ofNat 48 sum),
                      pmovf := if 2 ^ 48 ≤ sum then g.pmovf ||| BitVec.ofNat 8 (2 ^ k) else g.pmovf }
    if 2 ^ 48 ≤ sum then
      let event := ((g.pend.find? fun p => p.1 = k).map fun p => p.2.1).getD 0
      (s.setGroup gi h).reel g.core 0x28 (some g.ctx) (g.gslot + k * 2 ^ 52 + event * 2 ^ 47)
    else s.setGroup gi h

/-- The increments of a cycle taken by the counters of a group (spec 19 R343, R344; log 84). -/
def State.commit (s : State) (gi : Nat) : State :=
  match s.groups[gi]? with
  | none => s
  | some g =>
    if g.pend.isEmpty && g.early.isEmpty then s
    else
      let s1 := (List.range 8).foldl (fun s k => s.commitCounter gi (s.written gi g) k) s
      s1.modGroup gi fun h => { h with early := [] }

/-- Cycles of an event counted by the counters that have not counted the present one yet (spec 19 R343). -/
def Group.countCycles (g : Group) (event n : Nat) : Group := g.count ((g.counting event).filter fun k => !g.early.contains k) event n

/-- Cycles that a group spends: resident, stalled, and stalled for a power token (spec 19 R343, 02 R65 TOKWAIT). A group that waits for
nothing but its fetch, which is made at its turn, grows older as a ready one, where no wait holds that fetch; one that was stalled, be it in
the cycle of its own issue, is ready from the cycle on in which what stalled it has passed (01 R44; log 2). -/
def State.spend (s : State) (n gi : Nat) : State :=
  match s.groups[gi]? with
  | none => s
  | some g =>
    if !g.live then s.commit gi
    else
      let r := s.cycleReason gi g
      let waits := !s.unheld gi g
      let s1 := s.modGroup gi fun h =>
        let h1 := { h with stalled := waits, since := if h.stalled && !waits then s.cycle else h.since,
                           tokwait := if r = 9 then h.tokwait + BitVec.ofNat 64 n else h.tokwait }
        let h2 := h1.countCycles 1 n
        let h3 := if r = 0 then h2 else h2.countCycles 3 n
        if r = 9 then h3.countCycles 12 n else h3
      s1.commit gi

/-- A core's sampler changed. -/
def State.modSmp (s : State) (core : Nat) (f : Sampler → Sampler) : State := s.modCore core fun c => { c with smp := f c.smp }

/-- Whether a memory ring of 2^(size + 8) records is full (spec 21 R368, R383). -/
def ringFull (head tail : W32) (size : Nat) : Bool := (tail - head).toNat = 2 ^ (size + 8)

/-- Groups that a quadrant's sampler may take: resident, of the context where one is asked for (spec 21 R380). One that has exited holds
its slot until its team leaves the core (01 R35, R38). -/
def State.sampled (s : State) (core quad : Nat) (m : Sampler) : List (Nat × Group) :=
  s.indexed.filter fun x => x.2.live && x.2.core = core && x.2.quad = quad && (m.allctx || x.2.ctx = m.ctx)

/-- The group in the next occupied slot after the one sampled last, wrapping past 255 (spec 21 R380). -/
def nextSlot (last : Nat) (gs : List (Nat × Group)) : Option (Nat × Group) :=
  let far (g : Group) : Nat := (g.slot + 255 - last) % 256
  firstBy (fun a b => far a < far b) gs

/-- STATE and REASON of a sample (spec 21 R381, R382). The state of a group that has exited is none of those, and left open (log 3,
69). c: a free value's number. -/
def State.sampleState (s : State) (c : Nat) (x : Nat × Group) : Byte × Byte :=
  if (s.issueOf x.1 x.2).isSome then (0, 0)
  else if x.2.gone then (Config.freeByte c (2 * x.2.quad), Config.freeByte c (2 * x.2.quad + 1))
  else
    let r := s.reasonOf x.1 x.2
    if r = 0 then (1, 0) else (2, BitVec.ofNat 8 r)

/-- A sample record (spec 21 R381). -/
def State.sampleOf (s : State) (c core quad : Nat) (x : Nat × Group) : BitVec 256 :=
  let g := x.2
  let st := s.sampleState c x
  let pc := ((s.issueOf x.1 g).map Issued.pc).getD g.pc
  BitVec.ofNat 256 (leNat (leBytes 8 s.nstime.toNat ++ leBytes 8 (pc.toNat % 2 ^ 57) ++ leBytes 4 g.grid.toNat
    ++ leBytes 4 g.team.toNat ++ leBytes 2 g.idx ++ leBytes 1 core ++ leBytes 1 quad ++ leBytes 1 g.slot ++ [st.1, st.2]
    ++ leBytes 1 (g.trap.toNat + 2 * g.chain.isSome.toNat)))

/-- A record staged, or dropped where the buffer or the memory ring is full (spec 21 R383). -/
def Sampler.stage (m : Sampler) (r : BitVec 256) : Sampler :=
  if 64 ≤ m.staging.length || ringFull m.head m.tail (m.base.extractLsb' 0 4).toNat then { m with drop := sat32 m.drop 1 }
  else { m with staging := m.staging ++ [r] }

/-- One quadrant's part of an instant. -/
def State.sampleQuad (s : State) (c core : Nat) (m : Sampler) (quad : Nat) : Sampler :=
  match nextSlot ((m.last[quad]?).getD 255) (s.sampled core quad m) with
  | none => m
  | some x => { m with last := m.last.set quad x.2.slot }.stage (s.sampleOf c core quad x)

/-- Whether a core's instant has come. -/
def State.sampleDue (s : State) (core : Nat) : Bool := (s.cores[core]?).any fun c => c.smp.en && decide (c.smp.next ≤ s.cycle)

/-- The instant of a core: each quadrant is sampled (spec 21 R380). -/
def State.sampleCore (s : State) (core : Nat) : State :=
  match (s.cores[core]?).map Core.smp with
  | none => s
  | some m =>
    let d := s.draw
    let m1 := (List.range 4).foldl (d.2.sampleQuad d.1 core) m
    d.2.modSmp core fun _ => { m1 with next := m.next + m.period.toNat, done := s.cycle + 1 }

/-- SAMPLE_INSTANT (spec 21 R380, R385): a core whose instant has come is sampled once its quadrants have made their attempts of the
cycle; input: the core. -/
def execSampleInstant (s : State) : Host.Outcome State Fault Refusal :=
  match s.input with
  | .index core => .next (if s.sampleDue core && s.quiet (· = core) then s.sampleCore core else s)
  | _ => .next s

/-- Whether any group or queue could want a token. -/
def State.anyWants (s : State) : Bool :=
  (s.indexed.any fun x => s.groupWants false x.1 x.2) || s.cores.any fun c => !c.mxq.isEmpty

/-- Dies that have a token to hand on, or a free one and a cluster that wants it, and have not decided in this cycle (spec 13 R304). -/
def State.tokenDies (s : State) : List Nat :=
  let wants := s.anyWants
  (List.range s.dies.length).filter fun d => match s.dies[d]? with
    | none => false
    | some x => x.decided ≤ s.cycle && (!x.released.isEmpty || (wants && (x.clusters.filter Cluster.token).length < s.tokens d
        && (List.range 9).any fun c => !((x.clusters[c]?).any Cluster.token) && s.wantsToken d c))

/-- TOKEN_GRANT (spec 11 R264, 13 R304): the grants of a die, once a cycle, when its quadrants have made their attempts; input: the
die. -/
def execTokenGrant (s : State) : Host.Outcome State Fault Refusal :=
  match s.input with
  | .index die => .next (if s.tokenDies.contains die && s.quiet (fun c => dieOf c = die) then s.grantTokens die else s)
  | _ => .next s

/-- How far a correction of NSTIME is slewed in while d nanoseconds pass, k boundaries of 5 µs among them: a nanosecond at each, so 200
in a million, and never so that NSTIME goes back (spec 21 R378). -/
def slewStep (slew : Int) (k d : Nat) : Int := if 0 ≤ slew then min slew k else max slew (-((min k d : Nat) : Int))

/-- n cycles spent by every group. -/
def State.spendAll (s : State) (n : Nat) : State := (List.range s.groups.length).foldl (State.spend · n ·) s

/-- The clock goes on by n cycles: 4 nanoseconds to 9 cycles of 2.25 GHz (spec 00 R2, 21 R378; log 6). -/
def State.tick (s : State) (n : Nat) : State :=
  let x := 4 * n + s.nsRem
  let d := x / 9
  let k := slewStep s.slew ((s.slewNs + d) / 5000) d
  { s with cycle := s.cycle + n, nsRem := x % 9, slew := s.slew - k, slewNs := (s.slewNs + d) % 5000,
           nstime := BitVec.ofInt 64 ((s.nstime.toNat : Int) + d + k) }

/-- Waiting pops of queues and of the Cue heap served that a copy into their registers held back (spec 10 R251). -/
def State.serveGuarded (s : State) : State :=
  (List.range s.groups.length).foldl State.cueLand s.servePops

/-- The end of a cycle: what a copy held back is served, cores whose instant has come are sampled, the groups have spent it, and tokens are
granted for what its attempts found (spec 13 R304, 21 R380). -/
def State.endCycle (s : State) : State :=
  let due := (List.range s.cores.length).filter s.sampleDue
  let s1 := (due.foldl State.sampleCore s.serveGuarded).spendAll 1
  (s1.tokenDies.foldl State.grantTokens s1).tick 1

/-- n cycles pass. -/
def State.elapse (s : State) (n : Nat) : State :=
  match n with
  | 0 => s
  | 1 => s.endCycle
  | n + 1 => (s.endCycle.spendAll n).tick n

end Sys2Proof.Machine
end

