-- ==== Sys2Proof/Machine/Control.lean ====
section
/-! DEFINITION. Control flow, barriers, identities and CSRs (spec 01 R23 to R30, 08 R190 to R202, 12 R299). -/

namespace Sys2Proof.Machine

/-- The recorded PCs with those of a set of lanes replaced. -/
def setPCs (pcs : List W64) (m : Mask) (p : W64) : List W64 :=
  (List.range pcs.length).zipWith (fun i q => if m.getLsbD i then p else q) pcs

/-- The lowest of the recorded PCs of a set of lanes. -/
def lowestPC (pcs : List W64) (m : Mask) : W64 :=
  BitVec.ofNat 64 (((((List.range pcs.length).zip pcs).filter fun x => m.getLsbD x.1).map fun x => x.2.toNat).min?.getD 0)

/-- The lanes of a set whose recorded PC is q. -/
def lanesAt (pcs : List W64) (m : Mask) (q : W64) : Mask :=
  maskOf pcs.length fun i => m.getLsbD i && (pcs[i]?).getD 0 = q

/-- The switch with a resume address and a candidate set (spec 01 R24). -/
def Group.switch (g : Group) (p : W64) (cand : Mask) : Group :=
  let run := g.running
  let pcs := setPCs g.lanePC run p
  let parked := g.parked ||| run
  let stored := (g.stored &&& ~~~run) ||| (g.exec &&& run)
  let served := g.served ||| run
  let others := cand &&& g.parked &&& ~~~run
  let c := if others = 0 then run else others
  let served := if c &&& ~~~served = 0 then served &&& ~~~c else served
  let q := lowestPC pcs (c &&& ~~~served)
  let up := lanesAt pcs c q
  { g with lanePC := pcs, parked := parked &&& ~~~up, stored := stored &&& ~~~up, served := served &&& ~~~up,
           exec := stored &&& up, pc := q, yc := 0 }

/-- A switch of a group, recorded and counted (spec 21 R363 SWITCH, 19 R343 event 10); at trap level as elsewhere (log 87). -/
def State.switch (s : State) (gi : Nat) (g : Group) (p : W64) (cand : Mask) : State :=
  let h := g.switch p cand
  ((s.setGroup gi h).reel h.core 0x0A (some h.ctx) (h.gslot + pcField h.pc)).countEv gi 10 1

/-- A group that goes to a target, where a backward one while lanes are parked is a yield point (spec 01 R30). pc: the address of
the branch. DESIGN CHOICE: a group at trap level counts and switches as any other does; R22 has a handler change no divergence state,
and R30 makes no exception (log 87). -/
def State.goYield (s : State) (gi : Nat) (g : Group) (pc t : W64) : State :=
  if t.toNat ≤ pc.toNat && g.parked != 0 then
    if 2 ≤ g.yc.toNat + 1 then s.switch gi g t g.parked else s.setGroup gi { g with pc := t, yc := g.yc + 1 }
  else s.setGroup gi { g with pc := t }

/-- The address after an instruction. -/
def Iss.next (x : Iss) : W64 := nextPc x.g.pc x.e.ext.bytes

/-- NOP (spec 08 R190). -/
def execNop (e : Enc) (s : State) : Host.Outcome State Fault Refusal := issue 0x01 0 e s fun _ s => .done s .none

/-- A group that has exited: it counts as arrived at every barrier, its task ends, and its team may exit (spec 01 R37, R38, 05
R145, R147). -/
def State.groupGone (s : State) (gi : Nat) (g : Group) : State :=
  ((((s.setGroup gi { g with gone := true, trap := false }).endTask gi).advanceBarriers g.grid g.team).cueSettle g.grid).teamExit
    g.grid g.team

/-- The lanes of EXIT retired (spec 08 R191). -/
def Group.retireLanes (g : Group) : Group :=
  { g with exited := g.exited ||| g.exec, lanePC := setPCs g.lanePC g.exec g.pc, exec := 0 }

/-- The effect of EXIT (spec 08 R191, 01 R26). -/
def exitEff (x : Iss) (s : State) : Eff :=
  let g := x.g.retireLanes
  if g.running != 0 then .done (s.setGroup x.gi g) .none
  else if g.parked != 0 then .jump (s.switch x.gi g g.pc g.parked)
  else .jump (s.groupGone x.gi g)

/-- EXIT. -/
def execExit (e : Enc) (s : State) : Host.Outcome State Fault Refusal := issue 0x02 0 e s exitEff

/-- A direct branch of class J (spec 08 R193). -/
def branchEff (x : Iss) (s : State) : Eff :=
  if branchTaken x then .jump (s.goYield x.gi x.g x.g.pc (branchTarget x.g.pc x.e)) else .done s .none

/-- BRA. -/
def execBra (e : Enc) (s : State) : Host.Outcome State Fault Refusal := issue 0x03 0 e s branchEff
/-- BRZ. -/
def execBrz (e : Enc) (s : State) : Host.Outcome State Fault Refusal := issue 0x04 0 e s branchEff
/-- BRNZ. -/
def execBrnz (e : Enc) (s : State) : Host.Outcome State Fault Refusal := issue 0x05 0 e s branchEff

/-- The link of a call: the address after it, bits 63 to 57 zero (spec 08 R193). -/
def Iss.link (x : Iss) : W64 := BitVec.ofNat 64 (x.next.toNat % 2 ^ 57)

/-- A call to an address: the link pair is written and the group goes there (spec 08 R193). -/
def callEff (x : Iss) (s : State) (t : W64) : Eff :=
  let g := (x.deliver true fun _ => x.link).1
  .jump (s.setGroup x.gi { g with pc := t })

/-- CALL. -/
def execCall (e : Enc) (s : State) : Host.Outcome State Fault Refusal :=
  issue 0x06 0 e s fun x s => callEff x s (branchTarget x.g.pc x.e)
/-- CALLI (spec 08 R193). DEDUCED: the target is read before the link is written, also where both are one pair, since a target that
traps writes no link; R193's pseudocode lists the link first (log 91). -/
def execCalli (e : Enc) (s : State) : Host.Outcome State Fault Refusal :=
  issue 0x07 0 e s fun x s => callEff x s (x.pair x.e.sa x.ul)

/-- The end of an inline call at its RET: exec as at the CUEPUSH, and the null handle with INLINE in the called lanes of the
registers that the CUEPUSH names (spec 12 R299). w: the CUEPUSH. -/
def Group.inlineReturn (g : Group) (i : Inline) (w : BitVec 256) : Group :=
  let e := encOf w
  let n := g.width
  let zero : List W32 := List.replicate n 0
  let g1 := { g with inline := g.inline.drop 1 }
  let g2 := match e.dst, e.nw with
    | .v k, false => (g1.setV k i.lanes zero 0 n).setV (k.val + 1) i.lanes zero 0 n
    | _, _ => g1
  let g3 := match e.sb with
    | .v k => g2.setV k i.lanes (List.replicate n stInline) 0 n
    | _ => g2
  { g3 with exec := i.exec &&& g3.running }

/-- RET (spec 08 R193, 12 R299). The CUEPUSH of an inline call is read as an instruction is fetched. -/
def retEff (x : Iss) (s : State) : Eff :=
  let t := x.pair x.e.sa x.ul
  match x.g.inline with
  | i :: _ =>
    if t = nextPc i.at_ 8 then
      let r := s.resolve x.gi x.g false .fetch .g i.at_ 8
      match r.2 with
      | .error f => f.eff r.1 x.g .fetch
      | .ok p =>
        let g := x.g.inlineReturn i (BitVec.ofNat 256 (leNat (r.1.readAt p 8)))
        .jump (r.1.modGroup x.gi fun h => { g with pc := t, pend := h.pend })
    else .jump (s.setGroup x.gi { x.g with pc := t })
  | [] => .jump (s.setGroup x.gi { x.g with pc := t })

/-- RET. -/
def execRet (e : Enc) (s : State) : Host.Outcome State Fault Refusal := issue 0x08 0 e s retEff

/-- JMPI. -/
def execJmpi (e : Enc) (s : State) : Host.Outcome State Fault Refusal :=
  issue 0x09 0 e s fun x s => .jump (s.goYield x.gi x.g x.g.pc (x.pair x.e.sa x.ul))

/-- SKIPZ (spec 01 R23, 08 R194). -/
def execSkipz (e : Enc) (s : State) : Host.Outcome State Fault Refusal :=
  issue 0x0A 0 e s fun x s =>
    if x.g.exec = 0 then .jump (s.setGroup x.gi { x.g with pc := branchTarget x.g.pc x.e }) else .done s .none

/-- A group with lanes parked at an address, stored exec bit and served bit 1 (spec 01 R25, R27). -/
def Group.park (g : Group) (m : Mask) (p : W64) : Group :=
  { g with parked := g.parked ||| m, lanePC := setPCs g.lanePC m p, stored := g.stored ||| m, served := g.served ||| m,
           exec := g.exec &&& ~~~m }

/-- DIVB (spec 01 R27, R30). -/
def divbEff (x : Iss) (s : State) : Eff :=
  let entry := x.g.exec
  let taken := maskOf x.g.width fun i => entry.getLsbD i && x.pred x.e.sa i
  let g := (x.deliver true fun _ => entry).1
  let t := branchTarget x.g.pc x.e
  if taken = 0 then .done (s.setGroup x.gi g) .none
  else if taken = entry then .jump (s.goYield x.gi g x.g.pc t)
  else
    let h := g.park (entry &&& ~~~taken) x.next
    .jump ((s.reel g.core 0x09 (some g.ctx) (g.gslot + pcField g.pc)).goYield x.gi h x.g.pc t)

/-- DIVB. -/
def execDivb (e : Enc) (s : State) : Host.Outcome State Fault Refusal := issue 0x0B 0 e s divbEff

/-- JOIN (spec 01 R28). -/
def joinEff (x : Iss) (s : State) : Eff :=
  let g := x.g
  let m := x.pair x.e.sa x.ul &&& allLanes g.width &&& ~~~g.exited
  let here := lanesAt g.lanePC (m &&& g.parked) g.pc
  let waiting := m &&& g.parked &&& ~~~here
  if waiting = 0 then
    .done (s.setGroup x.gi { g with parked := g.parked &&& ~~~here, stored := g.stored &&& ~~~here,
                                    served := g.served &&& ~~~here, exec := m }) .none
  else .jump (s.switch x.gi g g.pc waiting)

/-- JOIN. -/
def execJoin (e : Enc) (s : State) : Host.Outcome State Fault Refusal := issue 0x0C 0 e s joinEff

/-- YIELD (spec 01 R29). -/
def execYield (e : Enc) (s : State) : Host.Outcome State Fault Refusal :=
  issue 0x0D 0 e s fun x s => if x.g.parked = 0 then .done s .none else .jump (s.switch x.gi x.g x.next x.g.parked)

/-- The barrier that a form names. -/
def Iss.barrier (x : Iss) : Nat := (x.word x.e.sa x.ul).toNat

/-- An arrival of a group at a barrier, a release, before which its accesses are performed (spec 08 R196, R197, 04 R124). -/
def State.arrive (s : State) (gi : Nat) (g : Group) (b : Nat) : State :=
  ((s.settleAll gi).modGroup gi fun h => { h with arr := h.arr.modify b (· + 1) }).advanceBarriers g.grid g.team

/-- The wait of a group for the phase it last arrived in (spec 08 R196). -/
def State.await (s : State) (gi b : Nat) : State :=
  s.modGroup gi fun g =>
    let n := (g.arr[b]?).getD 0
    let done := (((s.teamOf g).bind fun t => t.phase[b]?).getD 0)
    if n ≤ done then g else { g with wait := .barrier b n }

/-- BAR. -/
def execBar (e : Enc) (s : State) : Host.Outcome State Fault Refusal :=
  issue 0x0E 0 e s fun x s => .done ((s.arrive x.gi x.g x.barrier).await x.gi x.barrier) .none
/-- BARA. -/
def execBara (e : Enc) (s : State) : Host.Outcome State Fault Refusal :=
  issue 0x0F 0 e s fun x s => .done (s.arrive x.gi x.g x.barrier) .none
/-- BARW. -/
def execBarw (e : Enc) (s : State) : Host.Outcome State Fault Refusal :=
  issue 0x10 0 e s fun x s => .done (s.await x.gi x.barrier) .none

/-- SLEEP (spec 08 R198). -/
def execSleep (e : Enc) (s : State) : Host.Outcome State Fault Refusal :=
  issue 0x11 0 e s fun x s =>
    let n := (x.word x.e.sa x.ul).toNat
    if n = 0 then .done s .none else .done (s.setGroup x.gi { x.g with wait := .sleep (s.cycle + n) }) .none

/-- SLEEP_INTERVAL_END of a group (spec 08 R198); input: the group. -/
def execSleepIntervalEnd (s : State) : Host.Outcome State Fault Refusal :=
  match s.input with
  | .index gi => .next (s.modGroup gi fun g => match g.wait with
    | .sleep t => if g.live && t ≤ s.cycle then g.wake s.cycle else g
    | _ => g)
  | _ => .next s

/-- PRIO (spec 08 R199). -/
def execPrio (e : Enc) (s : State) : Host.Outcome State Fault Refusal :=
  issue 0x12 0 e s fun x s => .done (s.setGroup x.gi { x.g with prio := (x.word x.e.sa x.ul).setWidth 2 }) .none

/-- The identity item that GETID selects (spec 08 R200). -/
def State.identity (s : State) (g : Group) (sel : Nat) : W64 :=
  match sel with
  | 0 => s.csr g 0x000
  | 1 => s.csr g 0x001
  | 2 => s.csr g 0x002
  | 3 => s.csr g 0x003
  | 4 => s.csr g 0x005
  | 5 => s.csr g 0x004
  | 6 => BitVec.ofNat 64 g.nGroups
  | _ => (((s.grid? g.grid).map Grid.gcnt).getD 0).setWidth 64

/-- GETID. -/
def execGetid (e : Enc) (s : State) : Host.Outcome State Fault Refusal :=
  issue 0x13 0 e s <| pure1 fun x s => x.deliver false fun _ => s.identity x.g (x.word x.e.sa x.ul).toNat

/-- Whether a CSR is 64 bits wide. -/
def csrWide (c : Nat) : Bool := ((csrKind c).map Prod.fst).getD false

/-- The value that a CSR form writes from its source; for TOL constants are signed (spec 08 R201). -/
def Iss.csrSrc (x : Iss) : W64 :=
  if csrWide x.e.csr then x.pair x.e.sa x.ul (x.e.csr = 0x015) else (x.word x.e.sa x.ul).setWidth 64

/-- CSRR (spec 08 R201). -/
def execCsrr (e : Enc) (s : State) : Host.Outcome State Fault Refusal :=
  issue 0x14 0 e s <| pure1 fun x s => x.deliver (csrWide x.e.csr) fun _ => s.csr x.g x.e.csr

/-- A CSR written where it is writable (spec 08 R201). -/
def csrWriteState (x : Iss) (s : State) : State :=
  let c := x.e.csr
  if csrRO c then s else s.setCsr x.gi x.g c (csrNew x.opc x.sub (s.csr x.g c) x.csrSrc)

/-- CSRW. -/
def execCsrw (e : Enc) (s : State) : Host.Outcome State Fault Refusal :=
  issue 0x15 0 e s fun x s => .done (csrWriteState x s) .none

/-- CSRX: the CSR takes its new value, the destination the old one (spec 08 R201). -/
def csrxEff (x : Iss) (s : State) : Eff :=
  let old := s.csr x.g x.e.csr
  let s1 := csrWriteState x s
  match s1.groups[x.gi]? with
  | none => .done s1 .none
  | some g => pure1 (fun x _ => x.deliver (csrWide x.e.csr) fun _ => old) { x with g := g } s1

/-- CSRX.swap. -/
def execCsrxSwap (e : Enc) (s : State) : Host.Outcome State Fault Refusal := issue 0x16 0 e s csrxEff
/-- CSRX.set. -/
def execCsrxSet (e : Enc) (s : State) : Host.Outcome State Fault Refusal := issue 0x16 1 e s csrxEff
/-- CSRX.clear. -/
def execCsrxClear (e : Enc) (s : State) : Host.Outcome State Fault Refusal := issue 0x16 2 e s csrxEff

/-- The program counter of a lane as LPCR reads it (spec 01 R19). -/
def Group.lanePc (g : Group) (i : Nat) : W64 :=
  if g.parked.getLsbD i || g.exited.getLsbD i then (g.lanePC[i]?).getD 0 else g.pc

/-- LPCR: every lane below LANEW for which the guard holds (spec 08 R202). -/
def lpcrEff (x : Iss) (s : State) : Eff :=
  let lanes := maskOf x.g.width x.guard
  let w := x.g.width
  let vals (f : W64 → W32) : List W32 := (List.range w).map fun i => f (x.g.lanePc i)
  match x.e.dst, x.e.nw with
  | .v k, false =>
    if lanes = 0 then .done s .none
    else .done (s.setGroup x.gi ((x.g.setV k lanes (vals fun p => p.setWidth 32) 0 w).setV (k.val + 1) lanes
      (vals fun p => (p >>> 32).setWidth 32) 0 w)) .none
  | _, _ => .done s .none

/-- LPCR. -/
def execLpcr (e : Enc) (s : State) : Host.Outcome State Fault Refusal := issue 0x17 0 e s lpcrEff

/-- TRAP and SVC: the form completes, closing its chain, and enters its trap (spec 11 R284). -/
def trapEff (code : Nat) (x : Iss) (s : State) : Eff :=
  .jump (s.takeTrap x.gi false code 0 ((x.word x.e.sa x.ul).setWidth 64) (some x.next))

/-- TRAP. -/
def execTrap (e : Enc) (s : State) : Host.Outcome State Fault Refusal := issue 0x18 0 e s (trapEff 0x09)
/-- SVC. -/
def execSvc (e : Enc) (s : State) : Host.Outcome State Fault Refusal := issue 0x1A 0 e s (trapEff svcCode)

/-- A chain that goes on from its first address, recorded and counted (spec 21 R363 REPLAY, 19 R343 event 9; log 23). -/
def State.noteReplay (s : State) (gi : Nat) : State :=
  match s.groups[gi]? with
  | none => s
  | some g => (s.reel g.core 0x0B (some g.ctx) (g.gslot + pcField g.pc)).countEv gi 9 1

/-- ERET (spec 11 R285). -/
def eretEff (x : Iss) (s : State) : Eff :=
  let s1 := s.setGroup x.gi x.g.leaveTrap
  .jump (if x.g.inchain && x.g.xrpc = x.g.chfirst then s1.noteReplay x.gi else s1)

/-- ERET. -/
def execEret (e : Enc) (s : State) : Host.Outcome State Fault Refusal := issue 0x19 0 e s eretEff

/-- MARK (spec 11 R286, 21 R363). -/
def execMark (e : Enc) (s : State) : Host.Outcome State Fault Refusal :=
  issue 0x1B 0 e s fun x s =>
    .done (s.reel x.g.core 0x0C (some x.g.ctx)
      (x.g.gslot + (x.word x.e.sb x.ul).toNat * 2 ^ 51 + (x.word x.e.sa x.ul).toNat)) .none

/-- TSRD (spec 11 R287). -/
def execTsrd (e : Enc) (s : State) : Host.Outcome State Fault Refusal :=
  issue 0x1C 0 e s <| pure1 fun x s =>
    x.deliver true fun _ => if (x.word x.e.sa x.ul) = 0 then s.nstime
      else BitVec.ofNat 64 (s.cycle - ((s.cores[x.g.core]?).map Core.start).getD 0)

/-- A word that holds a reserved OPC: ILLEGAL 0x04, or a lower reason in its address (spec 07 R178, 06 R176). -/
def execReservedOpc (w : W64) (s : State) : Host.Outcome State Fault Refusal :=
  match s.groups[s.cur]? with
  | none => .fault .noGroup
  | some g =>
    let c := (firstWhy ((0x04, 2) :: pcWhy g.pc (ilen (w.setWidth 256)))).getD (0x04, 2)
    let s1 := match g.due with
      | d :: _ => s.deliverDue s.cur (w.getLsbD 15) d
      | [] => s.takeTrap s.cur (w.getLsbD 15) 0x01 c.1 (BitVec.ofNat 64 (c.1 + 256 * c.2)) none
    .next ((s1.countIssue s.cur g).noteIssued s.cur g (g.width = 64 && !w.getLsbD 13) none)

end Sys2Proof.Machine
end

