-- ==== Sys2Proof/Machine/Ntt.lean ====
section
/-! DEFINITION. Carry resolution and the NTT unit: CRES, BMUL, NTT, INTT, KSWITCH, XCRT (spec 09 R235, R236, 11 R268 to R273). -/

namespace Sys2Proof.Machine

/-- Limb 0 to n - 1 of an array in a space. -/
def Eng.limbs (e : Eng) (sp : Space) (a : W64) (n : Nat) : Except Stop (Eng × List W32) :=
  (e.read sp (limbsAt a) (4 * n)).map fun r => (r.1, words4 r.2)

/-- A number written to a limb array: its limbs, then its header, whose capacity and HEAP flag are those of h (spec 09 R235, 11
R269). -/
def Eng.putArray (e : Eng) (sp : Space) (a : W64) (x : Int) (n : Nat) (h : LimbHdr) : Except Stop Eng := do
  let e1 ← e.write sp (limbsAt a) (bytesOf (Machine.limbs x n))
  e1.write sp a (headerFor n h.cap.toNat true (h.flags.getLsbD 1)).bytes

/-- The register that a form's status goes to. -/
def Iss.statusHold (x : Iss) : List Res :=
  match x.e.dst, x.e.nw with
  | .s k, false => [.s k]
  | _, _ => []

/-- A space that a bit of CTL selects: S or G. -/
def Iss.spAt (x : Iss) (bit : Nat) : Space := if x.e.ctlF bit bit = 1 then .s else .g

/-- CRES at issue (spec 09 R235, R236). -/
def cresEff (x : Iss) (s : State) : Eff :=
  let sp := x.spAt 124
  let a := x.addrIn sp x.e.sa
  aligned16 s a <|
    .done (s.addOp x.gi (x.op (some .mx) (.cres a sp x.e.ctl (x.num x.e.sb) (x.num x.e.sc)) [] x.statusHold)) .none

/-- CRES. -/
def execCres (e : Enc) (s : State) : Host.Outcome State Fault Refusal := issue 0x9E 0 e s cresEff

/-- A field of CRES's control word, by instruction bits. -/
def cresF (ctl : BitVec 54) (hi lo : Nat) : Nat := (ctl.extractLsb' (lo - 74) (hi - lo + 1)).toNat

/-- The sum of elements at rising weights of 2^w (spec 09 R235). -/
def weighted (w : Nat) (es : List Nat) : Int := es.foldr (fun e acc => sextN e 96 + (2 ^ w : Nat) * acc) 0

/-- CRES carried out: the status (spec 09 R235). -/
def Eng.cres (e : Eng) (a : W64) (sp : Space) (ctl : BitVec 54) (start n : Nat) : Except Stop (Eng × W32) :=
  let w := if cresF ctl 123 123 = 0 then 16 else 32
  if n = 0 || 16384 < start + n then .ok (e, stBadRange)
  else do
    let r ← e.read sp a 16
    let h := hdrOf r.2
    if h.bad then .ok (r.1, stBadHdr)
    else do
      let v := weighted w (((e.g.tileElems (cresF ctl 127 125) true).drop start).take n)
      let q ← if cresF ctl 122 122 = 1 then r.1.limbs sp a h.len.toNat else .ok (r.1, [])
      let x : Int := if cresF ctl 122 122 = 1 then bignum q.2 + v * (2 ^ (32 * cresF ctl 121 106) : Nat) else v
      let l := leastLen x
      if h.cap.toNat < l then .ok (q.1, stOverCap)
      else do
        let e1 ← q.1.putArray sp a x l h
        .ok (e1, 0)

/-- An operation's end with a status. -/
def statusRun (o : Op) (r : Except Stop (Eng × W32)) : Run := runOf (r.map fun q => (q.1, o.status q.2))

/-- CRES of a group, when its turn has come. -/
def cresRun (s : State) (gi : Nat) (g : Group) (o : Op) : Option Run :=
  match o.body with
  | .cres a sp ctl start n => some (statusRun o ((Eng.start s gi g o).cres a sp ctl start n))
  | _ => none

/-- MATRIX_OPERATION_COMPLETION (spec 11 R263, 09 R236): an operation of the engine that has started, or a CRES whose turn has come;
input: group and operation. -/
def execMatrixOperationCompletion (s : State) : Host.Outcome State Fault Refusal :=
  match s.input with
  | .index2 gi id =>
    match s.opAt gi id with
    | none => .next s
    | some (g, o) =>
      match o.body with
      | .mxmac _ | .mxpair _ _ | .mxrd _ _ _ | .mxwr _ | .mxz _ _ =>
        .next (if o.phase = .started && s.unguarded gi o.hold then s.finishOp gi id o.lands none else s)
      | _ => match cresRun s gi g o with
        | some r => .next (if o.phase = .queued && g.mxIdle id then r.finish s gi id (o.status 0x12) else s)
        | none => .next s
  | _ => .next s

/-- An operation queued at the NTT unit of a core's pair; the even core goes first among those of one cycle (spec 11 R268). -/
def State.addNtt (s : State) (x : Iss) (o : Op) : State :=
  (s.addOp x.gi o).modCore (x.g.core / 2 * 2) fun c =>
    { c with ntt := enqueue { g := x.gi, op := x.g.opSeq, at_ := s.cycle, rank := x.g.core % 2 } c.ntt }

/-- Where ranges lie that a form reads at its issue, up to the first fault. -/
def State.issuePlaces (s : State) (x : Iss) : List Rng → State × Except Flt (List (List (Place × Nat)))
  | [] => (s, .ok [])
  | r :: rs =>
    let p := s.placeRange x.gi x.g false .load r.1 r.2.1 r.2.2
    match p.2.2 with
    | some f => (p.1, .error f)
    | none =>
      let q := State.issuePlaces p.1 x rs
      (q.1, q.2.map (p.2.1 :: ·))

/-- Reads by a group of bytes that a form needs at issue (spec 11 R269, R272): a fault of them is the instruction's, they are charged as its
group's loads are (18 R326; log 42), and its earlier accesses of the bytes come before them (04 R118, R124). -/
def readAtIssue (x : Iss) (s : State) (rs : List Rng) (f : State → List (List Byte) → Eff) : Eff :=
  let r := (s.settlePoison x.gi .load).issuePlaces x rs
  match r.2 with
  | .error e => e.eff r.1 x.g .load
  | .ok ps => r.1.demand (devRanges ps.flatten) fun s =>
    let s1 := s.settleFor x.gi false ps.flatten
    f s1 (ps.map s1.readPlaces)

/-- The bytes of a read in a list of them. -/
def readNo (bs : List (List Byte)) (i : Nat) : List Byte := (bs[i]?).getD []

/-- BMUL at issue (spec 11 R269): headers are read, and the path follows from them; on the schoolbook path it waits for room in the
engine's queue (R263). -/
def bmulEff (x : Iss) (s : State) : Eff :=
  let dsp := x.spAt 127
  let asp := x.spAt 126
  let bsp := x.spAt 125
  let d := x.addrIn dsp x.e.sa
  let a := x.addrIn asp x.e.sb
  let b := x.addrIn bsp x.e.sc
  alignedAll s 16 [d, a, b] <|
    readAtIssue x s [(dsp, d, 16), (asp, a, 16), (bsp, b, 16)] fun s1 bs =>
      let dh := readNo bs 0
      let ah := hdrOf (readNo bs 1)
      let bh := hdrOf (readNo bs 2)
      let school := ah.len.toNat ≤ x.g.ntthr.toNat && bh.len.toNat ≤ x.g.ntthr.toNat
      let o := x.op (some .nt)
        (.bmul d a b dsp asp bsp (hdrOf dh) ah bh (x.e.ctlF 124 122) (x.e.ctlF 121 117) school) [] x.statusHold
      if school && !s1.mxRoom x.g.core then .again s 10 [] else .done (if school then s1.addMx x o else s1.addNtt x o) .none

/-- BMUL. -/
def execBmul (e : Enc) (s : State) : Host.Outcome State Fault Refusal := issue 0xC6 0 e s bmulEff

/-- BMUL's product written to D, or the status that stops it; D that overlaps a factor is unspecified (spec 11 R269). -/
def Eng.bmul (e : Eng) (da aa ba : W64) (dsp asp bsp : Space) (dh ah bh : LimbHdr) (inside : Bool) : Except Stop (Eng × W32) :=
  let la := ah.len.toNat
  let lb := bh.len.toNat
  if dh.bad || ah.bad || bh.bad then .ok (e, stBadHdr)
  else if 65536 < la || 65536 < lb || !inside then .ok (e, stBadRange)
  else do
    let p ← e.limbs asp aa la
    let q ← p.1.limbs bsp ba lb
    let x := bignum p.2 * bignum q.2
    let l := leastLen x
    if dh.cap.toNat < l then .ok (q.1, stOverCap)
    else do
      let e1 ← q.1.putArray dsp da x l dh
      let d : Rng := (dsp, da, 16 + 4 * dh.cap.toNat)
      let src := e1.ids .engRead [(asp, aa, 16 + 4 * la), (bsp, ba, 16 + 4 * lb)]
      if (e1.ids .engWrite [d]).any src.contains then .ok (e1.blur [d] [d], 0) else .ok (e1, 0)

/-- The bytes of a team's Boom allocation on a group's core. -/
def State.boomSize (s : State) (g : Group) : Nat := ((s.teamOf g).map fun t => (t.half g.half).boom).getD 0

/-- The scratch tile, its window flag and the scratch Boom window of a BMUL, where that lies inside the allocation, left
unspecified (spec 11 R269; log 3). -/
def State.freeScratch (s : State) (gi : Nat) (g : Group) (tile boff : Nat) (inside : Bool) : State :=
  let a := s.freeBytes (3 * 65536)
  let b := a.2.freeBytes 65536
  let f := b.2.draw
  let flag : BitVec 2 := if tile = 0 then 1 else 2
  let s1 := f.2.modGroup gi fun g =>
    { g with acc := Memory.patch g.acc (65536 * tile) a.1,
             window := if (Config.freeWord f.1).getLsbD 0 then g.window ||| flag else g.window &&& ~~~flag }
  if inside then
    s1.modTeam g fun t =>
      let h := t.half g.half
      t.setHalf g.half { h with boomCells := Memory.patch h.boomCells (65536 * boff) b.1 }
  else s1

/-- BMUL carried out (spec 11 R269); one whose headers are rejected writes nothing, its scratch included (04 R108). -/
def bmulRun (s : State) (gi : Nat) (g : Group) (o : Op) : Option Run :=
  match o.body with
  | .bmul da aa ba dsp asp bsp dh ah bh tile boff _ =>
    let inside := 65536 * boff + 65536 ≤ s.boomSize g
    let s1 := if dh.bad || ah.bad || bh.bad then s else s.freeScratch gi g tile boff inside
    some (statusRun o ((Eng.start s1 gi g o).bmul da aa ba dsp asp bsp dh ah bh inside))
  | _ => none

/-- BMUL_SCHOOLBOOK_COMPLETION (spec 11 R269); input: group and operation. -/
def execBmulSchoolbookCompletion (s : State) : Host.Outcome State Fault Refusal :=
  match s.input with
  | .index2 gi id =>
    match s.opAt gi id with
    | some (g, o) => match bmulRun s gi g o with
      | some r => .next (if o.isMx && o.phase = .started then r.finish s gi id (o.status 0x12) else s)
      | none => .next s
    | none => .next s
  | _ => .next s

/-- NTT and INTT at issue (spec 11 R270). -/
def nttEff (inv : Bool) (x : Iss) (s : State) : Eff :=
  let dsp := x.spAt 122
  let asp := x.spAt 121
  let d := x.addrIn dsp x.e.sa
  let a := x.addrIn asp x.e.sb
  alignedAll s 8 [d, a] <|
    .done (s.addNtt x (x.op (some .nt) (.ntt inv d a dsp asp (x.e.ctlF 127 123) (x.pair x.e.sc x.ul) x.g.pform))) .none

/-- NTT. -/
def execNtt (e : Enc) (s : State) : Host.Outcome State Fault Refusal := issue 0xC7 0 e s (nttEff false)

/-- INTT. -/
def execIntt (e : Enc) (s : State) : Host.Outcome State Fault Refusal := issue 0xC8 0 e s (nttEff true)

/-- The 64-bit words of bytes. -/
def dwords8 : List Byte → List Nat
  | a :: b :: c :: d :: e :: f :: g :: h :: l => leNat [a, b, c, d, e, f, g, h] :: dwords8 l
  | _ => []

/-- The bytes of 64-bit words. -/
def bytes8 (ws : List Int) : List Byte := ws.flatMap fun w => leBytes 8 (wrapN w 64)

/-- The value of a polynomial, coefficients from degree 0 up, modulo q. -/
def polyAt (q : Int) (cs : List Int) (z : Int) : Int := cs.foldr (fun c acc => (c + z * acc) % q) 0

/-- The values of a polynomial at the powers of w, from a power z on. -/
def polyAts (q : Int) (cs : List Int) (w : Int) : Nat → Int → List Int
  | 0, _ => []
  | n + 1, z => polyAt q cs z :: polyAts q cs w n (z * w % q)

/-- 1 / 2^k modulo an odd q. -/
def invPow2 (q : Int) : Nat → Int
  | 0 => 1 % q
  | k + 1 => invPow2 q k * ((q + 1) / 2) % q

/-- The transform of coefficients (spec 11 R270). -/
def transform (inv : Bool) (logn : Nat) (w q : Int) (cs : List Int) : List Int :=
  let ys := polyAts q (cs.map (· % q)) (w % q) (2 ^ logn) (1 % q)
  if inv then ys.map fun y => invPow2 q logn * y % q else ys

/-- NTT or INTT carried out; D that overlaps A without being A is unspecified (spec 11 R270). -/
def Eng.transform (e : Eng) (inv : Bool) (da aa : W64) (dsp asp : Space) (logn : Nat) (w : W64) (pform : W32) :
    Except Stop (Eng × List Land) := do
  let n := 8 * 2 ^ logn
  let r ← e.read asp aa n
  let q := modulusOf pform
  let e1 ← r.1.write dsp da (bytes8 (Machine.transform inv logn w.toNat q ((dwords8 r.2).map Int.ofNat)))
  let src := e1.ids .engRead [(asp, aa, n)]
  let dst := e1.ids .engWrite [(dsp, da, n)]
  if src != dst && dst.any src.contains then .ok (e1.blur [(dsp, da, n)] [(dsp, da, n)], []) else .ok (e1, [])

/-- KSWITCH at issue: both headers are read, and unequal key numbers trap (spec 11 R271, R272). -/
def kswitchEff (x : Iss) (s : State) : Eff :=
  let c := (x.word x.e.sa x.ul).setWidth 64
  let k := x.pair x.e.sb x.ul
  alignedAll s 64 [c, k] <|
    readAtIssue x s [(.s, c, 64), (.g, k, 64)] fun s bs =>
      let ch := readNo bs 0
      let kh := readNo bs 1
      if wordAt ch 1 != wordAt kh 0 then .trap s 0x07 0 (wordAt kh 0 ++ wordAt ch 1)
      else .done (s.addNtt x (x.op (some .nt) (.kswitch c k ch kh) [] x.statusHold)) .none

/-- KSWITCH. -/
def execKswitch (e : Enc) (s : State) : Host.Outcome State Fault Refusal := issue 0xC9 0 e s kswitchEff

/-- Bytes lo to lo + n - 1 of a header as a number. -/
def numAt (bs : List Byte) (lo n : Nat) : Nat := leNat ((bs.drop lo).take n)

/-- X times a polynomial modulo X^n + 1, n the number of its coefficients. -/
def mulX (cs : List Int) : List Int := -cs.getLastD 0 :: cs.dropLast

/-- A product modulo X^n + 1 (spec 11 R272). -/
def negacyclic (a b : List Int) : List Int :=
  a.foldr (fun c acc => List.zipWith (· + ·) (b.map (c * ·)) (mulX acc)) (b.map fun _ => 0)

/-- The sum over d of R272's products for row i: u0 and u1 so far. base: where the row of k(0, 0, 0) lies; step: bytes of a row
of key data times KLEV. -/
def Eng.keyRow (e : Eng) (c1 kdata : W64) (n klev i : Nat) (qs : List Int) : Nat → Nat → List Int → List Int →
    Except Stop (Eng × List Int × List Int)
  | 0, _, u0, u1 => .ok (e, u0, u1)
  | m + 1, d, u0, u1 => do
    let kAt (t : Nat) : W64 := kdata + BitVec.ofNat 64 (8 * n * ((2 * d + t) * klev + i))
    let c ← e.read .g (c1 + BitVec.ofNat 64 (8 * n * d)) (8 * n)
    let k0 ← c.1.read .g (kAt 0) (8 * n)
    let k1 ← k0.1.read .g (kAt 1) (8 * n)
    let x : List Int := ((dwords8 c.2).map Int.ofNat).map fun v => v % qs.getD d 1
    let ints (bs : List Byte) : List Int := (dwords8 bs).map Int.ofNat
    Eng.keyRow k1.1 c1 kdata n klev i qs m (d + 1) (List.zipWith (· + ·) u0 (negacyclic x (ints k0.2)))
      (List.zipWith (· + ·) u1 (negacyclic x (ints k1.2)))

/-- The rows of R272 in turn, each written in place before the next is formed (log 29). A modulus that is not positive leaves the
rows unspecified. -/
def Eng.keyRows (e : Eng) (c0 c1 kdata : W64) (n klev rows : Nat) (qs : List Int) : Nat → Nat → Except Stop Eng
  | 0, _ => .ok e
  | m + 1, i => do
    let at_ (b : W64) : W64 := b + BitVec.ofNat 64 (8 * n * i)
    let r ← e.read .g (at_ c0) (8 * n)
    let u ← r.1.keyRow c1 kdata n klev i qs rows 0 ((dwords8 r.2).map Int.ofNat) ((dwords8 r.2).map fun _ => 0)
    let q := qs.getD i 1
    let e1 ← u.1.write .g (at_ c0) (bytes8 (u.2.1.map (· % q)))
    let e2 ← e1.write .g (at_ c1) (bytes8 (u.2.2.map (· % q)))
    Eng.keyRows e2 c0 c1 kdata n klev rows qs m (i + 1)

/-- Whether KSWITCH rejects its headers: a reserved field, or fields that do not fit (spec 11 R272). LOGN, LEVEL and KLEV outside the
ranges of R271 are in none of its checks, and the operation is carried out with them as they stand (log 67). -/
def keyBad (ch kh : List Byte) : Bool :=
  numAt ch 48 16 != 0 || numAt ch 17 7 != 0 || numAt kh 32 32 != 0 || numAt kh 17 7 != 0 || numAt kh 12 4 != 0
  || numAt ch 2 2 != numAt kh 8 2 || numAt ch 16 1 != numAt kh 16 1 || numAt kh 10 2 < numAt ch 0 2 + 1

/-- KSWITCH carried out: the status (spec 11 R272). -/
def Eng.kswitch (e : Eng) (c : W64) (ch kh : List Byte) : Except Stop (Eng × W32) :=
  if keyBad ch kh then .ok (e, stBadRange)
  else do
    let addr (bs : List Byte) (lo : Nat) : W64 := BitVec.ofNat 64 (numAt bs lo 8)
    let rows := numAt ch 0 2 + 1
    let klev := numAt kh 10 2
    let n := 2 ^ numAt ch 16 1
    let t ← e.read .g (addr ch 40) (4 * rows)
    let pfs := words4 t.2
    if pfs.any fun p => pformOf p = 0 then .ok (t.1, stBadRange)
    else do
      let h ← t.1.read .s c 16
      let left := (wordAt h.2 2).toInt - numAt kh 4 4
      if left < 0 then do
        let e1 ← h.1.write .s c (h.2.take 12 ++ bytesOf [wordAt h.2 3 ||| 1])
        .ok (e1, 0x22)
      else do
        let e1 ← h.1.write .s c (h.2.take 8 ++ bytesOf [BitVec.ofInt 32 left] ++ h.2.drop 12)
        let c0 := addr ch 24
        let c1 := addr ch 32
        let qs := pfs.map modulusOf
        let e2 ← e1.keyRows c0 c1 (addr kh 24) n klev rows qs rows 0
        let hd : Rng := (.s, c, 16)
        let r0 : Rng := (.g, c0, 8 * n * rows)
        let r1 : Rng := (.g, c1, 8 * n * rows)
        let key : List Rng := (.g, addr ch 40, 4 * rows) ::
          (List.range (2 * rows)).map fun m => (.g, addr kh 24 + BitVec.ofNat 64 (8 * n * (m * klev)), 8 * n * rows)
        let e3 := ((e2.blur key [hd, r0, r1]).blur [r1] [r0]).blur [r0] [r1]
        if qs.all fun q => decide (0 < q) then .ok (e3, 0) else .ok (e3.blur [r0, r1] [r0, r1], 0)

/-- XCRT at issue (spec 11 R273). -/
def xcrtEff (x : Iss) (s : State) : Eff :=
  let d := x.pair x.e.sa x.ul
  alignedAll s 64 [d] <| .done (s.addNtt x (x.op (some .nt) (.xcrt d) [] x.statusHold)) .none

/-- XCRT. -/
def execXcrt (e : Enc) (s : State) : Host.Outcome State Fault Refusal := issue 0xCA 0 e s xcrtEff

/-- What XCRT uses of a table: q, y, M of each residue (spec 11 R273). -/
def crtRows (bs : List Byte) (m : Nat) : List (Nat × Nat × Nat) :=
  (List.range m).map fun i => (numAt bs (48 * i) 8, numAt bs (48 * i + 8) 8, numAt bs (48 * i + 16) 32)

/-- The sum of R273 over the residues of element j. -/
def Eng.crtSum (e : Eng) (j : Nat) : List (W64 × Nat × Nat × Nat) → Nat → Except Stop (Eng × Nat)
  | [], acc => .ok (e, acc)
  | r :: rs, acc => do
    let v ← e.read .g (r.1 + BitVec.ofNat 64 (8 * j)) 8
    Eng.crtSum v.1 j rs (acc + leNat v.2 * r.2.2.1 % r.2.1 * r.2.2.2)

/-- The elements of XCRT in turn (spec 11 R273). -/
def Eng.crtAll (e : Eng) (dest : W64) (q : Nat) (rs : List (W64 × Nat × Nat × Nat)) : Nat → Nat → Except Stop Eng
  | 0, _ => .ok e
  | m + 1, j => do
    let x ← e.crtSum j rs 0
    let e1 ← x.1.write .g (dest + BitVec.ofNat 64 (32 * j)) (leBytes 32 (x.2 % q))
    Eng.crtAll e1 dest q rs m (j + 1)

/-- Whether XCRT rejects its descriptor: M or N out of range, or a reserved field, the addresses at or above M among them (spec 11
R273). -/
def crtBad (bs : List Byte) : Bool :=
  let m := numAt bs 52 1
  let n := numAt bs 48 4
  m = 0 || 4 < m || n = 0 || 65536 < n || numAt bs 53 11 != 0 || numAt bs (16 + 8 * m) (32 - 8 * m) != 0

/-- XCRT carried out: the status (spec 11 R273). DEDUCED: a TABLE that is no multiple of 64, and a DEST that is none of 32, are used as
they stand; R273 asks for the alignment and names no outcome (log 65). -/
def Eng.xcrt (e : Eng) (d : W64) : Except Stop (Eng × W32) := do
  let r ← e.read .g d 64
  if crtBad r.2 then .ok (r.1, stBadRange)
  else do
    let addr (lo : Nat) : W64 := BitVec.ofNat 64 (numAt r.2 lo 8)
    let m := numAt r.2 52 1
    let n := numAt r.2 48 4
    let t ← r.1.read .g (addr 8) (48 * m)
    let q ← t.1.read .g (addr 8 + 192) 32
    let rows := crtRows t.2 m
    if (rows.any fun x => x.1 = 0) || leNat q.2 = 0 then .ok (q.1, stBadRange)
    else do
      let rs := (List.range m).zipWith (fun i x => (addr (16 + 8 * i), x)) rows
      let e1 ← q.1.crtAll (addr 0) (leNat q.2) rs n 0
      let srcs : List Rng := [(.g, d, 64), (.g, addr 8, 48 * m), (.g, addr 8 + 192, 32)] ++ rs.map fun x => (.g, x.1, 8 * n)
      .ok (e1.blur srcs [(.g, addr 0, 32 * n)], 0)

/-- What an operation of the NTT unit does (spec 11 R268). -/
def unitRun (s : State) (gi : Nat) (g : Group) (o : Op) : Option Run :=
  let e := Eng.start s gi g o
  match o.body with
  | .ntt inv d a dsp asp logn w pf => some (runOf (e.transform inv d a dsp asp logn w pf))
  | .kswitch c _ ch kh => some (statusRun o (e.kswitch c ch kh))
  | .xcrt d => some (statusRun o (e.xcrt d))
  | _ => bmulRun s gi g o

/-- An operation taken off the NTT unit of a core's pair. -/
def State.unitPop (s : State) (core gi id : Nat) : State :=
  s.modCore (core / 2 * 2) fun c => { c with ntt := c.ntt.filter fun q => !(q.g = gi && q.op = id) }

/-- Whether an operation of a group is still to be made: it is paused on a fault record, or its requests are held (spec 18 R326). -/
def State.unmade (s : State) (gi id : Nat) : Bool :=
  match (s.groups[gi]?).bind fun g => g.op? id with
  | some o => o.phase = .paused || o.phase = .queued
  | none => false

/-- NTT_UNIT_OPERATION_COMPLETION (spec 11 R268): the operation at the head of its pair's unit is carried out, in a cycle after that of its
arrival; input: group and operation. -/
def execNttUnitOperationCompletion (s : State) : Host.Outcome State Fault Refusal :=
  match s.input with
  | .index2 gi id =>
    match s.opAt gi id with
    | none => .next s
    | some (g, o) =>
      let first := ((s.cores[g.core / 2 * 2]?).bind fun c => c.ntt.head?).any fun q => q.g = gi && q.op = id && q.at_ < s.cycle
      match unitRun s gi g o with
      | none => .next s
      | some r =>
        if o.phase != .queued || !first then .next s
        else
          let s1 := r.finish s gi id (o.status 0x12)
          .next (if s1.unmade gi id then s1 else s1.unitPop g.core gi id)
  | _ => .next s

end Sys2Proof.Machine
end

