-- ==== Sys2Proof/Machine/Nest.lean ====
section
/-! DEFINITION. Loop nests (spec 06 R173, R174, 11 R274 to R276). -/

namespace Sys2Proof.Machine

/-- The register of an operand's base: D 0, A 1, B 2. -/
def nestBase (e : NestEnc) (o : Nat) : Nat := if o = 0 then e.dbase.val else if o = 1 then e.abase.val else e.bbase.val

/-- The space of an operand. -/
def nestSpace (e : NestEnc) (o : Nat) : Space := if (if o = 0 then e.ds else e.abs) then .s else .g

/-- An operand's base address (spec 11 R274). -/
def Group.nestAddr (g : Group) (e : NestEnc) (o : Nat) : W64 :=
  let b := nestBase e o
  if nestSpace e o = .s then (g.s b).setWidth 64 else g.s2 b

/-- An operand's stride at a level: the field, or the register that -512 stands for (spec 06 R174). -/
def Group.nestStep (g : Group) (e : NestEnc) (o k : Nat) : Int :=
  let d := nestStride e o k
  if d = -512 then (g.s (nestBase e o + 2 + k)).toInt else d

/-- Strides in the order of the encoding: D, A, B, five levels each. -/
def Group.nestSteps (g : Group) (e : NestEnc) : List Int :=
  (List.range 3).flatMap fun o => (List.range 5).map fun k => if k < nestLevels e then g.nestStep e o k else 0

/-- A loop nest's operation: addresses, strides and PFORM are read (spec 11 R274). -/
def State.addNest (s : State) (gi : Nat) (g : Group) (e : NestEnc) : State :=
  s.addOp gi
    { id := 0, cls := some .ln, pc := g.pc, word := nestBits e, phase := .queued, lands := [], hold := [], holdW := [],
      body := .nest e (g.nestAddr e 0) (g.nestAddr e 1) (g.nestAddr e 2) (g.nestSteps e) g.pform, fault := none }

/-- An issued loop nest noted and counted. -/
def State.issuedNest (s : State) (gi : Nat) (g : Group) : State := (s.countIssue gi g).noteIssued gi g false none

/-- LNEST at issue (spec 06 R173, 11 R274): the operation is queued and raises ln. -/
def execLnest (e : NestEnc) (s : State) : Host.Outcome State Fault Refusal :=
  match s.groups[s.cur]? with
  | none => .fault .noGroup
  | some g =>
    if nestStall s.cur g e s != 0 then .next s
    else
      match g.due with
      | d :: _ => .next ((s.deliverDue s.cur false d).issuedNest s.cur g)
      | [] =>
        match firstWhy (nestIssueWhy g e) with
        | some c => .next ((s.takeTrap s.cur false 0x01 c.1 (BitVec.ofNat 64 (c.1 + 256 * c.2)) none).issuedNest s.cur g)
        | none =>
          let s1 := (s.addNest s.cur g e).modGroup s.cur fun h => { h with pc := nextPc g.pc 32, since := s.cycle, chain := none }
          .next (s1.issuedNest s.cur g)

/-- A loop nest in progress: the engine, B under BSC, the ranges that A and B were read from. -/
structure NestAt where
  eng : Eng
  b : Nat
  srcs : List Rng

/-- What a loop nest does, as read at issue. -/
structure NestJob where
  e : NestEnc
  base : List W64
  steps : List Int
  pform : W32

/-- Bytes of an element. -/
def NestJob.es (j : NestJob) : Nat := tyBits j.e.etype.toNat / 8

/-- The range of an operand's element at a sum of strides times indices (spec 11 R274). -/
def NestJob.at_ (j : NestJob) (o : Nat) (off : Int) : Rng :=
  let a := j.base.getD o 0 + BitVec.ofInt 64 ((j.es : Int) * off)
  let sp := nestSpace j.e o
  (sp, if sp = .s then (a.setWidth 32).setWidth 64 else a, j.es)

/-- The stride of an operand at a level. -/
def NestJob.step (j : NestJob) (o k : Nat) : Int := j.steps.getD (5 * o + k) 0

/-- The result of an element operation without carry (spec 11 R275): patterns of A, B and D. -/
def nestElem (eop ty : Nat) (pform : W32) (a b d : Nat) : Nat :=
  let f := fmtOf ty 0
  let v := intVal ty
  let int (x : Int) : Nat := intResult ty false x
  let flt := 8 ≤ ty
  let dec := decodeF f
  let enc := encodeV f false 0
  match eop with
  | 0x00 => a
  | 0x01 => if flt then addF f false 0 a b else int (v a + v b)
  | 0x02 => if flt then enc (subV (dec a) (dec b) 0) else int (v a - v b)
  | 0x03 => if flt then enc (mulV (dec a) (dec b)) else int (v a * v b)
  | 0x04 => if flt then enc (fmaV (dec a) (dec b) (dec d) 0) else int (v a * v b + v d)
  | 0x05 => if flt then addF f false 0 d a else int (v d + v a)
  | 0x06 => if flt then minMaxF f false a b else int (min (v a) (v b))
  | 0x07 => if flt then minMaxF f true a b else int (max (v a) (v b))
  | 0x08 => a &&& b
  | 0x09 => a ||| b
  | 0x0A => a ^^^ b
  | _ => int (reduceForm (v a * v b) pform (modulusOf pform))

/-- The result and the carry of an element operation with one (spec 11 R276). -/
def nestCarry (eop a b d c : Nat) : Nat × Nat :=
  if eop = 0x0B then ((a + b + c) % 2 ^ 32, (a + b + c) / 2 ^ 32)
  else if eop = 0x0C then (wrapN ((a : Int) - b - c) 32, if a < b + c then 1 else 0)
  else ((a * b + d + c) % 2 ^ 32, (a * b + d + c) / 2 ^ 32)

/-- Whether an element operation carries. -/
def nestCarries (eop : Nat) : Bool := eop = 0x0B || eop = 0x0C || eop = 0x0D

/-- The element after a run of level 0: the carry, or the borrow in every bit (spec 11 R276). -/
def nestLast (eop c : Nat) : Nat := if eop = 0x0C && c != 0 then 2 ^ 32 - 1 else c

/-- One element read. -/
def NestAt.read (t : NestAt) (r : Rng) : Except Stop (NestAt × Nat) :=
  (t.eng.read r.1 r.2.1 r.2.2).map fun q => ({ t with eng := q.1 }, leNat q.2)

/-- One element step (spec 11 R274): reads in order, then D is written; the carry after it. -/
def NestAt.run (t : NestAt) (j : NestJob) (od oa ob : Int) (c : Nat) : Except Stop (NestAt × Nat) := do
  let ra := j.at_ 1 oa
  let a ← t.read ra
  let rb := j.at_ 2 ob
  let b ← if j.e.bsc then .ok (a.1, t.b) else a.1.read rb
  let rd := j.at_ 0 od
  let d ← if j.e.drd then b.1.read rd else .ok (b.1, 0)
  let eop := j.e.eop.toNat
  let x := if nestCarries eop then nestCarry eop a.2 b.2 d.2 c else (nestElem eop j.e.etype.toNat j.pform a.2 b.2 d.2, 0)
  let e1 ← d.1.eng.write rd.1 rd.2.1 (leBytes j.es x.1)
  .ok ({ d.1 with eng := e1, srcs := ra :: (if j.e.bsc then t.srcs else rb :: t.srcs) }, x.2)

/-- A run of level 0 from its indices on, within n steps (spec 11 R274, R276). -/
def NestAt.level0 (t : NestAt) (j : NestJob) : Nat → Int → Int → Int → Nat → Except Stop NestAt
  | 0, od, _, _, c =>
    if nestCarries j.e.eop.toNat then do
      let rd := j.at_ 0 od
      let e1 ← t.eng.write rd.1 rd.2.1 (leBytes j.es (nestLast j.e.eop.toNat c))
      .ok { t with eng := e1 }
    else .ok t
  | n + 1, od, oa, ob, c => do
    let r ← t.run j od oa ob c
    NestAt.level0 r.1 j n (od + j.step 0 0) (oa + j.step 1 0) (ob + j.step 2 0) r.2

/-- The iterations of one level, each doing f at its offsets. -/
def nestTimes (j : NestJob) (k : Nat) (f : NestAt → Int → Int → Int → Except Stop NestAt) :
    Nat → NestAt → Int → Int → Int → Except Stop NestAt
  | 0, t, _, _, _ => .ok t
  | n + 1, t, od, oa, ob => do
    let t1 ← f t od oa ob
    nestTimes j k f n t1 (od + j.step 0 k) (oa + j.step 1 k) (ob + j.step 2 k)

/-- The levels up to one, the highest outermost (spec 11 R274). -/
def nestRun (j : NestJob) : Nat → NestAt → Int → Int → Int → Except Stop NestAt
  | 0, t, od, oa, ob => t.level0 j (nestExtent j.e 0) od oa ob 0
  | k + 1, t, od, oa, ob => nestTimes j (k + 1) (nestRun j k) (nestExtent j.e (k + 1)) t od oa ob

/-- A loop nest carried out (spec 11 R274); D's bytes that A or B was read from are unspecified (10 R249 item 8 by 11 R258;
log 30). -/
def Eng.nest (e : Eng) (j : NestJob) : Except Stop (Eng × List Land) := do
  let t0 : NestAt := { eng := e, b := 0, srcs := [] }
  let t ← if j.e.bsc then (do
      let rb := j.at_ 2 0
      let b ← t0.read rb
      pure { b.1 with b := b.2, srcs := [rb] }) else .ok t0
  let t1 ← nestRun j (nestLevels j.e - 1) t 0 0 0
  .ok (t1.eng.blur t1.srcs t1.eng.wrote, [])

/-- What a loop nest does when it completes. -/
def streamRun (s : State) (gi : Nat) (g : Group) (o : Op) : Option Run :=
  match o.body with
  | .nest e d a b steps pf =>
    some (runOf ((Eng.start s gi g o).nest { e := e, base := [d, a, b], steps := steps, pform := pf }))
  | _ => none

/-- STREAM_ENGINE_COMPLETION (spec 11 R274); input: group and operation. -/
def execStreamEngineCompletion (s : State) : Host.Outcome State Fault Refusal :=
  match s.input with
  | .index2 gi id =>
    match s.opAt gi id with
    | none => .next s
    | some (g, o) => match streamRun s gi g o with
      | some r => .next (if o.phase = .queued then r.finish s gi id [] else s)
      | none => .next s
  | _ => .next s

end Sys2Proof.Machine
end

