-- ==== Sys2Proof/Machine/StockForms.lean ====
section
/-! DEFINITION. Stock: lookup or allocation, reference counts, loads and tree copies of lines, and ROOTCAS (spec 04 R109 to R116,
11 R280 to R283). -/

namespace Sys2Proof.Machine

/-- Statuses of the Stock forms (spec 11 R259). -/
def stStockFull : W32 := 0x40
def stStockAbsent : W32 := 0x41
def stChanged : W32 := 0x42

/-- A name (spec 04 R110): DIGEST in the low 120 bits, ORD above. -/
abbrev Name := BitVec 128

/-- The digest of a name. -/
def nameDigest (n : Name) : BitVec 120 := n.extractLsb' 0 120
/-- The ordinal of a name; 0 for the null name. -/
def nameOrd (n : Name) : Byte := n.extractLsb' 120 8

/-- DIGEST bytes 0 to 7, as traps report them (spec 19 R327, 11 R281). -/
def digestLow (d : BitVec 120) : W64 := d.extractLsb' 0 64

/-- The leaf entries of a page table at a level, with their page sizes in bits (spec 19 R332, R333). -/
def State.leaves (s : State) : Nat → Nat → List (W64 × Nat)
  | level, table =>
    (List.range (if level = 0 then 32 else 512)).flatMap fun idx =>
      let pa := table + 8 * idx
      if (s.physWhy pa true).isSome then []
      else
        let w := BitVec.ofNat 64 (leNat (s.readDev pa 8 none))
        if !w.getLsbD 0 || entryBad w level then []
        else if w.getLsbD 1 then [(w, levelBits level)]
        else
          match level with
          | 0 => []
          | l + 1 => State.leaves s l (if l = 0 then w.toNat % 2 ^ 52 / 2 ^ 8 * 2 ^ 8 else w.toNat % 2 ^ 52 / 2 ^ 12 * 2 ^ 12)

/-- The lines of a context's Stock region: those of the pages whose entries carry the Stock class (spec 04 R109), where device
memory holds them. -/
def State.stockLines (s : State) (ctx : W32) : List (Nat × Option (Fin 64)) :=
  match s.ctxDesc ctx with
  | none => []
  | some d =>
    (s.leaves 4 d.root).flatMap fun (w, bits) =>
      if w.extractLsb' 55 2 != 1 then []
      else
        let key : Option (Fin 64) := if w.getLsbD 57 then some (w.extractLsb' 58 6).toFin else none
        ((List.range (2 ^ bits / 256)).map fun k => (w.toNat % 2 ^ 52 / 2 ^ bits * 2 ^ bits + 256 * k, key)).filter fun l =>
          (s.physWhy l.1 false).isNone

/-- The live line of a name in a context (spec 04 R113). -/
def State.stockLine (s : State) (ctx : W32) (n : Name) : Option StockLine :=
  if nameOrd n = 0 then none else (s.ctx ctx).stock.find? fun l => l.ord = nameOrd n && l.digest = nameDigest n

/-- The bytes of a line, or the fault of reading it: its address is the digest (spec 19 R327). -/
def State.lineBytes (s : State) (l : StockLine) : Except Flt (List Byte) :=
  let empty := match l.key with
    | some q => ((s.keys[q.val]?).getD none).isNone
    | none => false
  match s.physWhy l.pa true, s.physWhy (l.pa + 128) true with
  | some k, _ => .error (.mem k (digestLow l.digest))
  | none, some k => .error (.mem k (digestLow l.digest))
  | none, none =>
    if empty then .error (.noKey (digestLow l.digest))
    else .ok (s.readDev l.pa 128 l.key ++ s.readDev (l.pa + 128) 128 l.key)

/-- The live lines of a context changed. -/
def State.modStock (s : State) (ctx : W32) (f : List StockLine → List StockLine) : State :=
  let c := s.ctx ctx
  s.setCtx { c with stock := f c.stock }

/-- A reference count one up or down; at its greatest it stays (spec 04 R112). -/
def countStep (up : Bool) (n : W32) : W32 := if n = 0xFFFFFFFF then n else if up then n + 1 else n - 1

/-- A line's count changed; at 0 the line is free (spec 04 R112). -/
def State.stepCount (s : State) (ctx : W32) (l : StockLine) (up : Bool) : State :=
  s.modStock ctx fun ls =>
    (ls.map fun m => if m = l then { m with count := countStep up m.count } else m).filter fun m => m.count != 0

/-- DIGEST of a line in a context (spec 04 R110). -/
def stockDigest (ctx : W32) (line : List Byte) : BitVec 120 :=
  BitVec.ofNat 120 (leNat ((sha256 (leBytes 32 (Config.stockSalt ctx).toNat ++ line)).take 15))

/-- A lookup-or-allocate (spec 04 R111): the name; STOCK_FULL is the null name; none where every ordinal is taken. The free line
that an allocation takes is open (log 3). -/
def State.lookup (s : State) (ctx : W32) (line : List Byte) : Except Flt (State × Option Name) := do
  let d := stockDigest ctx line
  let same := (s.ctx ctx).stock.filter fun l => l.digest = d
  let found ← same.filterM fun l => (s.lineBytes l).map fun bs => bs == line
  match found with
  | l :: _ => .ok (s.stepCount ctx l true, some (l.ord ++ d))
  | [] =>
    match (List.range 255).find? fun k => !same.any fun l => l.ord.toNat = k + 1 with
    | none => .ok (s, none)
    | some k =>
      let free := (s.stockLines ctx).filter fun p => !(s.ctx ctx).stock.any fun l => l.pa = p.1
      let c := s.draw
      match free[Config.freeChoice c.1 free.length % free.length]? with
      | none => .ok (s, some 0)
      | some (pa, key) =>
        let s1 := ((c.2.writeDev pa (line.take 128) key).writeDev (pa + 128) (line.drop 128) key).clearPoison [(pa, 256)]
        let ord := BitVec.ofNat 8 (k + 1)
        .ok (s1.modStock ctx fun ls => ls ++ [{ pa := pa, key := key, ord := ord, digest := d, count := 1 }], some (ord ++ d))

/-- The device bytes of a line. -/
def StockLine.range (l : StockLine) : Nat × Nat := (l.pa, 256)

/-- The device bytes that a lookup-or-allocate reads and writes (spec 18 R326): the lines of the digest, and the line that the name which it
returned has been given. -/
def State.lookupBytes (s s1 : State) (ctx : W32) (line : List Byte) (n : Option Name) : List (Nat × Nat) :=
  let read := ((s.ctx ctx).stock.filter fun l => l.digest = stockDigest ctx line).map StockLine.range
  let new := ((n.bind (s1.stockLine ctx)).filter fun l => !read.contains l.range).map StockLine.range
  read ++ new.toList

/-- The vector registers of a line: 64 / W from one on (spec 11 R281). -/
def lineRegs (k w : Nat) : List Nat := (List.range (64 / w)).map fun j => k + j

/-- SKLOOK at issue (spec 11 R281). -/
def sklookEff (x : Iss) (s : State) : Eff :=
  let quad : List Res := match x.e.dst, x.e.nw with
    | .s k, false => sRegs k 4
    | _, _ => []
  let st : List Res := match x.e.sb with
    | .s k => [.s k]
    | _ => []
  let wait (s : State) (line : List Byte) : Eff :=
    .stay ((s.addOp x.gi (x.op (some .sk) (.sklook line) [] (quad ++ st))).modGroup x.gi fun g => { g with wait := .stock })
  match x.e.sa with
  | .v k =>
    let rs := lineRegs k x.g.width
    match rs.find? fun r => (List.range x.g.width).any fun i => x.g.marked r i with
    | some r => .trap s 0x02 0 (BitVec.ofNat 64 r)
    | none => wait s (bytesOf (x.g.regWords k (64 / x.g.width)))
  | _ =>
    let a := (x.word x.e.sa x.ul).setWidth 64
    aligned16 s a <| readAtIssue x s [(.s, a, 256)] fun s bs => wait s (readNo bs 0)

/-- SKLOOK. -/
def execSklook (e : Enc) (s : State) : Host.Outcome State Fault Refusal := issue 0xD6 0 e s sklookEff

/-- The landing of values in scalar registers in turn. -/
def sLands (rs : List Res) (ws : List W32) : List Land :=
  (rs.zip ws).filterMap fun (r, w) => match r with
    | .s k => some (.s k w)
    | _ => none

/-- The words of a name. -/
def nameWords (n : Name) : List W32 := (List.range 4).map fun j => n.extractLsb' (32 * j) 32

/-- A waiting SKLOOK withdrawn for a trap at it. -/
def State.dropLook (s : State) (gi id : Nat) : State :=
  s.modGroup gi fun g => { g with ops := g.ops.filter fun o => o.id != id, wait := .ready }

/-- What a lookup-or-allocate of a group's SKLOOK leaves: the name in its registers, or the trap of a digest whose ordinals are all taken
(spec 04 R111, 11 R281, 21 R363 STOCKCOL). -/
def State.linearised (s : State) (gi : Nat) (g : Group) (o : Op) (line : List Byte) (n : Option Name) : State :=
  match n with
  | none =>
    let d := digestLow (stockDigest g.ctx line)
    ((s.reel g.core 0x13 (some g.ctx) g.gslot (some (0, 0, d))).dropLook gi o.id).takeTrap gi false 0x08 0 d none
  | some n =>
    let st := if n = 0 then stStockFull else 0
    let words := if o.hold.length = 5 then nameWords n ++ [st] else [st]
    (s.finishOp gi o.id (sLands o.hold words) none).modGroup gi fun g => g.resume 16 s.cycle

/-- LOOKUP_OR_ALLOCATE (spec 04 R111, 11 R281); one whose requests a budget holds waits (18 R326); input: the group that waits in SKLOOK. -/
def execLookupOrAllocate (s : State) : Host.Outcome State Fault Refusal :=
  match s.input with
  | .index gi =>
    match s.groups[gi]? with
    | none => .next s
    | some g =>
      if !g.live || g.wait != .stock then .next s
      else
        match g.ops.find? fun o => match o.body with
          | .sklook _ => true
          | _ => false with
        | none => .next s
        | some o =>
          match o.body with
          | .sklook line =>
            match s.lookup g.ctx line with
            | .error f => .next (match f.due? with
                | some d => ((s.reelPoison g true f).dropLook gi o.id).takeTrap gi false 0x04 d.kind d.addr none
                | none => s)
            | .ok (s0, n) =>
              let s1 := ((Eng.start s0 gi g o).charge (s.lookupBytes s0 g.ctx line n)).s
              if s.heldBack s1 then .next (s.pay s1 gi o.id) else .next (s1.linearised gi g o line n)
          | _ => .next s
  | _ => .next s

/-- The name that a quad operand holds (spec 11 R280). -/
def Iss.nameOf (x : Iss) (a : Src) : Name := BitVec.ofNat 128 (x.quadVal a x.ul)

/-- A Stock operation queued (spec 11 R282). -/
def stockOp (x : Iss) (s : State) (body : OpBody) (more : List Res := []) : Eff :=
  .done (s.addOp x.gi (x.op (some .sk) body [] (x.statusHold ++ more))) .none

/-- SKLD (spec 11 R282). -/
def skldEff (x : Iss) (s : State) : Eff :=
  let n := x.nameOf x.e.sb
  if x.e.ctlF 127 127 = 1 then
    let a := x.word x.e.sa x.ul
    aligned16 s (a.setWidth 64) <| stockOp x s (.skld n (some a) 0)
  else
    let k := x.e.ctlF 126 119
    stockOp x s (.skld n none k) (vRegs k (64 / x.g.width))

/-- SKLD. -/
def execSkld (e : Enc) (s : State) : Host.Outcome State Fault Refusal := issue 0xD7 0 e s skldEff

/-- SKREF and SKUNREF (spec 11 R282). -/
def skrefEff (up : Bool) (x : Iss) (s : State) : Eff := stockOp x s (.skref up (x.nameOf x.e.sa))

/-- SKREF. -/
def execSkref (e : Enc) (s : State) : Host.Outcome State Fault Refusal := issue 0xD8 0 e s (skrefEff true)
/-- SKUNREF. -/
def execSkunref (e : Enc) (s : State) : Host.Outcome State Fault Refusal := issue 0xD9 0 e s (skrefEff false)

/-- SKCOPY (spec 11 R282). -/
def skcopyEff (x : Iss) (s : State) : Eff :=
  let sp := x.spAt 127
  let a := x.addrIn sp x.e.sa
  alignedAll s 256 [a] <|
    stockOp x s (.skcopy a sp (x.nameOf x.e.sb) (x.word x.e.sc x.ul) (x.e.ctlF 126 124))

/-- SKCOPY. -/
def execSkcopy (e : Enc) (s : State) : Host.Outcome State Fault Refusal := issue 0xDA 0 e s skcopyEff

/-- A line read by the Stock engine, charged to its class (spec 18 R326): none when it is not live. -/
def Eng.line (e : Eng) (n : Name) : Except Stop (Eng × Option (List Byte)) :=
  match e.s.stockLine e.g.ctx n with
  | none => .ok (e, none)
  | some l => match e.s.lineBytes l with
    | .ok bs => .ok (e.charge [l.range], some bs)
    | .error f => .error (e, f, .engRead)

/-- SKLD carried out. -/
def Eng.skld (e : Eng) (n : Name) (stage : Option W32) (k : Nat) (o : Op) : Except Stop (Eng × List Land) := do
  match ← e.line n with
  | (e, none) => .ok (e, o.status stStockAbsent)
  | (e, some bs) =>
    match stage with
    | some a => (e.write .s (a.setWidth 64) bs).map fun e => (e, o.status 0)
    | none => .ok (e, regLands k e.g.width (words4 bs) ++ o.status 0)

/-- A subtree written from a destination on (spec 11 R282): zero lines for an absent one; false once a name is not live. -/
def Eng.tree (sp : Space) : Nat → Eng → W64 → Name → Except Stop (Eng × Bool)
  | depth, e, a, n =>
    if nameOrd n = 0 then (e.write sp a (List.replicate (256 * 16 ^ depth) 0)).map fun e => (e, true)
    else do
      match ← e.line n with
      | (e, none) => .ok (e, false)
      | (e, some bs) =>
        match depth with
        | 0 => (e.write sp a bs).map fun e => (e, true)
        | d + 1 =>
          (List.range 16).foldlM (fun (acc : Eng × Bool) i =>
            if acc.2 then
              Eng.tree sp d acc.1 (a + BitVec.ofNat 64 (i * 256 * 16 ^ d)) (BitVec.ofNat 128 (leNat ((bs.drop (16 * i)).take 16)))
            else .ok acc) (e, true)

/-- SKCOPY carried out: the status (spec 11 R282). A copy that ends at a name not live leaves its destination unspecified (17 R310). -/
def Eng.skcopy (e : Eng) (a : W64) (sp : Space) (n : Name) (limit : W32) (depth : Nat) : Except Stop (Eng × W32) :=
  if limit.toNat < 256 * 16 ^ depth then .ok (e, stOverCap)
  else do
    let r ← Eng.tree sp depth e a n
    if r.2 then .ok (r.1, 0)
    else .ok ({ r.1 with s := ({ r.1 with wrote := [(sp, a, 256 * 16 ^ depth)] } : Eng).spoil }, stStockAbsent)

/-- SKREF or SKUNREF carried out: the status (spec 04 R112). -/
def State.countName (s : State) (ctx : W32) (up : Bool) (n : Name) : State × W32 :=
  match s.stockLine ctx n with
  | none => (s, stStockAbsent)
  | some l => (s.stepCount ctx l up, 0)

/-- What a Stock operation does when it completes. -/
def stockRun (s : State) (gi : Nat) (g : Group) (o : Op) : Option Run :=
  let e := Eng.start s gi g o
  match o.body with
  | .skld n stage k => some (runOf (e.skld n stage k o))
  | .skref up n =>
    let r := s.countName g.ctx up n
    some (.ok r.1 [] (o.status r.2))
  | .skcopy a sp n limit depth => some (statusRun o (e.skcopy a sp n limit depth))
  | _ => none

/-- Whether a Stock operation has to wait for the reads of earlier matrix operations (spec 13 R303). -/
def State.stockWaits (s : State) (gi : Nat) (g : Group) (o : Op) : Bool :=
  match o.body with
  | .skld _ (some a) _ => s.stageBusy gi g o.id (some (.s, a.setWidth 64, 256))
  | _ => false

/-- STOCK_OPERATION_COMPLETION (spec 11 R258, R282); input: group and operation. -/
def execStockOperationCompletion (s : State) : Host.Outcome State Fault Refusal :=
  match s.input with
  | .index2 gi id =>
    match s.opAt gi id with
    | none => .next s
    | some (g, o) => match stockRun s gi g o with
      | some r => .next (if o.phase = .queued && !s.stockWaits gi g o && s.unguarded gi o.hold then r.finish s gi id (o.status 0x12) else s)
      | none => .next s
  | _ => .next s

/-- ROOTCAS (spec 04 R116, 11 R283): it comes after the group's earlier accesses of the cell, and one that succeeds is a release (04
R124). DEDUCED: a cell at an address that is no multiple of 16 is MISALIGN, as 04 R98 and 19 R327 say, and no MEMFAULT (log 82). -/
def rootcasEff (x : Iss) (s : State) : Eff :=
  let a := x.pair x.e.sa x.ul
  aligned16 s a <|
    let r := (s.settlePoison x.gi .atomic).resolve x.gi x.g false .atomic .g a 16
    match r.2 with
    | .error f => f.eff r.1 x.g .atomic
    | .ok p => r.1.demand (devPlaces [p] 16) fun s =>
      let s := s.settleFor x.gi false [(p, 16)]
      let new := x.nameOf x.e.sc
      let old := BitVec.ofNat 128 (s.loadAt p 16)
      let st : W32 := if nameOrd new != 0 && (s.stockLine x.g.ctx new).isNone then stStockAbsent
        else if old = x.nameOf x.e.sb then 0 else stChanged
      let s1 := if st = 0 then (s.settleAll x.gi).storeAt p 16 new.toNat else s
      let regs : List Res := (match x.e.dst, x.e.nw with
        | .s k, false => sRegs k 4
        | _, _ => []) ++ [.s (x.e.ctlF 127 121)]
      let lands := sLands regs ((if regs.length = 5 then nameWords old else []) ++ [st])
      .done (s1.addOp x.gi (x.op (some .ld) .plain lands regs)) .none

/-- ROOTCAS. -/
def execRootcas (e : Enc) (s : State) : Host.Outcome State Fault Refusal := issue 0xDB 0 e s rootcasEff

end Sys2Proof.Machine
end

