-- ==== Sys2Proof/Machine/Translate.lean ====
section
/-! DEFINITION. Page walks, fetches, fault records and their answers, TLB invalidation (spec 06 R154, 19 R334 to R336). -/

namespace Sys2Proof.Machine

/-- PAGE_WALK (spec 19 R334): the translation of an address for a group, looked up and installed; input: group and address. A
walk that finds no valid leaf installs nothing. -/
def execPageWalk (s : State) : Host.Outcome State Fault Refusal :=
  match s.input with
  | .walk gi va =>
    match s.groups[gi]? with
    | some g => .next (if g.live && va.extractLsb' 57 7 = 0 then (s.leafOf g.core gi false .load g.ctx va).1 else s)
    | none => .next s
  | _ => .next s

/-- INSTRUCTION_FETCH (spec 06 R154): the fetch block of a group that waits for it; input: the group. -/
def execInstructionFetch (s : State) : Host.Outcome State Fault Refusal :=
  match s.input with
  | .index gi =>
    match s.groups[gi]? with
    | some g => .next (if g.live && !g.gone && !g.stopped && g.atIssue && !g.hasBlock then (s.fetchBlock gi).1 else s)
    | none => .next s
  | _ => .next s

/-- Whether the fault ring is in use and has room (spec 19 R335). -/
def State.ringRoom (s : State) : Bool :=
  s.frbase.getLsbD 4 && (s.frtail - s.frhead).toNat != 2 ^ ((s.frbase.extractLsb' 0 4).toNat + 7)

/-- The bytes of a fault record (spec 19 R335). -/
def recordBytes (r : FaultRec) (g : Group) (seq : W32) : List Byte :=
  leBytes 4 g.grid.toNat ++ leBytes 4 g.team.toNat ++ [0, 0, BitVec.ofNat 8 r.level, BitVec.ofNat 8 r.kind, BitVec.ofNat 8 g.slot,
    BitVec.ofNat 8 g.quad] ++ leBytes 2 g.core ++ leBytes 4 seq.toNat ++ leBytes 4 r.ctx.toNat ++ leBytes 8 r.va.toNat

/-- Bytes that the device writes to its rings in memory, by physical address: nothing where no memory answers. -/
def State.writePhys (s : State) (pa : Nat) (bs : List Byte) : State :=
  if (s.physWhy pa false).isNone then (s.writeDev pa bs none).clearPoison [(pa, bs.length)] else s

/-- FAULT_RECORD (spec 19 R335, 21 R363 XFAULT): the oldest fault that waits to be recorded is written, once the ring has room. -/
def execFaultRecord (s : State) : Host.Outcome State Fault Refusal :=
  match s.frRecs.find? fun r => r.seq.isNone with
  | none => .next s
  | some r =>
    match s.groups[r.g]? with
    | none => .next s
    | some g =>
      if !s.ringRoom then .next s
      else
        let seq := s.frSeq + 1
        let size := (s.frbase.extractLsb' 0 4).toNat
        let pa := s.frbase.toNat % 2 ^ 52 / 2 ^ 12 * 2 ^ 12 + 32 * (s.frtail.toNat % 2 ^ (size + 7))
        let slot := if r.op.isSome then noSlot else g.gslot
        let s1 := (s.writePhys pa (recordBytes r g seq)).reel g.core 0x10 (some r.ctx)
          (slot + r.kind * 2 ^ 52 + r.level * 2 ^ 49 + seq.toNat)
        .next { s1 with frSeq := seq, frtail := s.frtail + 1,
                        frRecs := s.frRecs.map fun q => if q = r then { q with seq := some seq } else q }

/-- The group of a record goes on: after the SVC of a service record, or from the faulting instruction, a chain from its first
address (spec 19 R336, 02 R64). -/
def State.retryGroup (s : State) (r : FaultRec) : State :=
  match s.groups[r.g]? with
  | none => s
  | some g =>
    if !g.live then s
    else if r.kind = 6 then s.modGroup r.g fun g => g.resume (ilen (BitVec.ofNat 256 (leNat g.instrBytes))) s.cycle
    else
      match g.chain with
      | none => s.modGroup r.g fun g => g.wake s.cycle
      | some c => (s.modGroup r.g fun g => { g.wake s.cycle with pc := c.first, chain := none }).noteReplay r.g

/-- What an operation of an engine does. fail: the address of a fault record answered with FAIL, whose page that is not present then ends
it (spec 19 R336). -/
def opRun (fail : Option W64) (s : State) (gi : Nat) (g : Group) (o : Op) : Option Run :=
  (copyRun fail s gi g o).or <| (cresRun s gi g o).or <| (unitRun s gi g o).or <| (streamRun s gi g o).or <|
    match o.body with
    | .regIn sp a _ _ n => some (runOf (((Eng.start s gi g o).read sp a (4 * g.width * n)).map fun r => (r.1, [])))
    | _ => stockRun s gi g o

/-- A paused operation ends as a faulted one: what it wrote is unspecified (spec 10 R249 item 6, 19 R336). -/
def State.failOp (s : State) (gi id : Nat) (va : W64) : State :=
  match s.opAt gi id with
  | none => s
  | some (g, o) =>
    let s0 := s.unitPop g.core gi id
    let over_ (s1 : State) (lands : List Land) : State := s1.finishOp gi id lands (some { kind := 0x01, addr := va })
    match o.body with
    | .halloc _ dst st =>
      let q := s0.hallocFault dst st
      over_ q.1 q.2
    | _ =>
      match opRun (some va) s0 gi g o with
      | some (.flt s1 _ _ _) => over_ s1 (o.status 0x12)
      | some (.part s1 w _ _ _ _ _) => over_ (s1.spoil gi g w) (o.status 0x12)
      | _ => over_ s0 (o.status 0x12)

/-- The waiting record of a SEQ, which the driver answers, taken off the list. -/
def State.answer (s : State) (seq : W32) : Option (FaultRec × State) :=
  (s.frRecs.find? fun r => r.seq = some seq).map fun r => (r, { s with frRecs := s.frRecs.erase r })

/-- A paused operation goes on: a schoolbook BMUL has started, others are queued at their units. -/
def Op.unpause (o : Op) : Op := { o with phase := if o.isMx && o.cls = some .nt then .started else .queued }

/-- RETRY of a record (spec 19 R336). -/
def State.retry (s : State) (seq : W32) : State :=
  match s.answer seq with
  | none => s
  | some (r, s1) =>
    match r.op with
    | none => s1.retryGroup r
    | some id => s1.modGroup r.g fun g => if g.live then g.modOp id Op.unpause else g

/-- FAIL of a record (spec 19 R336). -/
def State.fail (s : State) (seq : W32) : State :=
  match s.answer seq with
  | none => s
  | some (r, s1) =>
    match r.op, s1.groups[r.g]? with
    | some id, _ => s1.failOp r.g id r.va
    | none, none => s1
    | none, some g =>
      if !g.live then s1
      else if r.kind = 6 then s1.contextFatal g.ctx g.core g.gslot svcCode
      else
        let s2 := s1.modGroup r.g fun g => { g.wake s.cycle with redo := g.redo.drop 1 }
        if g.gone then s2.teamExit g.grid g.team else s2.takeTrap r.g r.ch 0x04 0x01 r.va none

/-- RETRY; input: the SEQ. -/
def execRetry (s : State) : Host.Outcome State Fault Refusal :=
  match s.input with
  | .seq n => .next (s.retry n)
  | _ => .next s

/-- FAIL; input: the SEQ. -/
def execFail (s : State) : Host.Outcome State Fault Refusal :=
  match s.input with
  | .seq n => .next (s.fail n)
  | _ => .next s

/-- The two words of TLBINV written: the second starts an invalidation. While DONE is 0 both writes are ignored (spec 19 R334). -/
def State.tlbinv (s : State) (a b : Option W64) : State :=
  if !s.tlbDone then s
  else
    let s1 := match a with
      | some w => { s with tlbVA := w.extractLsb' 16 41 ++ (0 : BitVec 16) |>.setWidth 64 }
      | none => s
    match b with
    | some w => { s1 with tlbCtx := w.extractLsb' 32 32, tlbPages := w.extractLsb' 8 24, tlbDone := false }
    | none => s1

/-- TLBINV; input: both words. -/
def execTlbinv (s : State) : Host.Outcome State Fault Refusal :=
  match s.input with
  | .words a b => .next (s.tlbinv (some a) (some b))
  | _ => .next s

/-- Whether an invalidation names a cached translation. -/
def State.invalidates (s : State) (t : Tlb) : Bool :=
  let lo := s.tlbVA.toNat
  let hi := lo + 65536 * s.tlbPages.toNat
  let a := t.vpage * 2 ^ t.bits
  t.ctx = s.tlbCtx && (s.tlbPages = 0 || (a < hi && lo < a + 2 ^ t.bits))

/-- Whether a group of a context has an access in memory still to perform. -/
def State.accessing (s : State) (ctx : W32) : Bool :=
  s.groups.any fun g => g.ctx = ctx && g.ops.any fun o => match o.acc? with
    | some a => a.todo.any fun t => match t.place with
      | .dev _ _ | .host _ => true
      | _ => false
    | none => false

/-- TLB_INVALIDATE_DONE (spec 19 R334): the accesses that used a translation are performed, and no TLB holds one of the range any
more. -/
def execTlbInvalidateDone (s : State) : Host.Outcome State Fault Refusal :=
  if s.tlbDone || s.accessing s.tlbCtx then .next s
  else
    let keep (l : List Tlb) : List Tlb := l.filter fun t => !s.invalidates t
    .next { s with tlbDone := true, cores := s.cores.map fun c => { c with tlb1 := c.tlb1.map keep, tlb2 := keep c.tlb2 } }

/-- The ranges that an operation has written, those of the parts of it that are done included, or would write. -/
def State.reach (s : State) (gi : Nat) (g : Group) (o : Op) : List Rng :=
  match o.body with
  | .halloc size _ _ => (match s.halloc g.ctx size.toNat with
      | .ok (a, _, _) => [(.g, BitVec.ofNat 64 a, 16)]
      | .error _ => [])
  | _ => ((opRun none s gi g o).map Run.wrote).getD o.wrote

/-- What an operation that ends wherever it stands has written, or may be writing, made unspecified (spec 10 R249 item 6, 19 R342; log 3). -/
def State.abandon (s : State) (gi : Nat) (g : Group) (o : Op) : State :=
  if o.phase = .done then s else s.spoil gi g (s.reach gi g o)

/-- What groups have under way ended: their accesses are performed, and their engine operations abandoned (spec 19 R342). -/
def State.abandonAll (s : State) (p : Group → Bool) : State :=
  (List.range s.groups.length).foldl (fun s gi =>
    match s.groups[gi]? with
    | some g => if p g then g.ops.foldl (fun s o => s.abandon gi g o) (s.settleAll gi) else s
    | none => s) s

/-- GRID_COMPLETION (spec 01 R41, 19 R342); input: the grid. -/
def execGridCompletion (s : State) : Host.Outcome State Fault Refusal :=
  match s.input with
  | .grid id =>
    if s.gridDone id then
      .next (if ((s.grid? id).map Grid.fatal).getD false then (s.abandonAll fun g => g.grid = id).completeFatal id else s.completeGrid id)
    else .next s
  | _ => .next s

end Sys2Proof.Machine
end

