-- ==== Sys2Proof/Machine/Image.lean ====
section
/-! DEFINITION. The team image: what a pre-emption saves and a restore brings back (spec 19 R340, R341). -/

namespace Sys2Proof.Machine

/-- Bytes with zeros after them up to n. -/
def padTo (n : Nat) (bs : List Byte) : List Byte := bs ++ List.replicate (n - bs.length) 0

/-- The CSRs of a group section, in ascending number. -/
def savedCsrs : List Nat :=
  [0x010, 0x011, 0x012, 0x013, 0x014, 0x021, 0x022, 0x023, 0x024, 0x025, 0x026, 0x031]
  ++ (List.range 8).map (0x100 + ·) ++ (List.range 8).map (0x110 + ·) ++ [0x120, 0x121]

/-- Bytes of a group section: n register numbers at width w, b accumulator slots. -/
def groupSize (w n b : Nat) : Nat := roundUp (1280 + 16 * w + 4 * w * n + n + n * w / 8 + 65536 * b) 256

/-- Where a stopped group goes on: a chain from its first address (spec 02 R64). -/
def Group.resumePc (g : Group) : W64 := (g.chain.map Chain.first).getD g.pc

/-- The byte of flags of a lane. -/
def Group.laneFlags (g : Group) (i : Nat) : Byte :=
  let bit (m : Mask) (k : Nat) : Nat := if m.getLsbD i then 2 ^ k else 0
  BitVec.ofNat 8 (bit g.parked 0 + bit g.served 1 + bit g.stored 2 + bit g.exited 3)

/-- An entry of the inline stack. -/
def Inline.bytes (i : Inline) : List Byte := leBytes 8 i.at_.toNat ++ leBytes 8 i.exec.toNat ++ leBytes 8 i.lanes.toNat

/-- The control part of a group section. -/
def Group.controlBytes (g : Group) : List Byte :=
  padTo 512 <| padTo 16 (leBytes 8 g.resumePc.toNat)
    ++ [BitVec.ofNat 8 g.yc.toNat, BitVec.ofNat 8 g.inline.length] ++ leBytes 2 g.vregs.length
    ++ [BitVec.ofNat 8 g.window.toNat, 0, 0, 0] ++ ((List.range 16).flatMap fun b => leBytes 4 ((g.arr[b]?).getD 0))
    ++ leBytes 8 g.cueLeft.toNat ++ g.inline.flatMap Inline.bytes

/-- The lanes of a group section. -/
def Group.laneBytes (g : Group) : List Byte :=
  let h := { g with pc := g.resumePc }
  (List.range g.width).flatMap fun i =>
    leBytes 8 (h.lanePc i).toNat ++ [g.laneFlags i, 0]
      ++ leBytes 6 ((List.range 48).map fun k => if g.p k i then 2 ^ k else 0).sum

/-- A group section, before its padding. -/
def State.groupBytes (s : State) (g : Group) : List Byte :=
  (List.range 128).flatMap (fun k => leBytes 4 (g.s k).toNat)
    ++ padTo 256 (savedCsrs.flatMap fun c => leBytes 8 (s.csr g c).toNat)
    ++ g.controlBytes ++ g.laneBytes
    ++ g.vregs.flatMap (fun r => (List.range g.width).flatMap fun i => leBytes 4 ((r.val[i]?).getD 0).toNat)
    ++ g.vregs.map VReg.tag ++ g.vregs.flatMap (fun r => leBytes (g.width / 8) r.mark.toNat)
    ++ Memory.span g.acc 0 (65536 * g.accSlots)

/-- An entry of a Stage queue as memory holds it (spec 10 R254). -/
def QEntry.bytes (w : Nat) (e : QEntry) : List Byte :=
  ((List.range w).flatMap fun i => leBytes 4 ((e.val[i]?).getD 0).toNat) ++ leBytes 4 e.by_ ++ leBytes 4 1

/-- The queue area (spec 10 R254). -/
def Team.queueBytes (t : Team) : List Byte :=
  t.queues.flatMap fun q => padTo (16 * (4 * t.width + 8)) (q.flatMap (QEntry.bytes t.width))

/-- A half's part of the Stage section. -/
def Half.stageBytes (h : Half) : List Byte := Memory.span h.cells 0 h.stage ++ Memory.span h.cells (2 ^ 19) (32768 * h.banks.length)

/-- A half's part of the Stage section of a team: unspecified for one that a reset of its core has taken away, with as many operand banks
as the other half's (spec 19 R342; log 3, 86). c: a free value's number. -/
def Team.stagePart (t : Team) (c : Nat) (odd : Bool) : List Byte :=
  if t.lost = some odd then (List.range ((t.half odd).stage + 32768 * (t.half (!odd)).banks.length)).map (Config.freeByte c)
  else (t.half odd).stageBytes

/-- The Stage section. -/
def Team.stageBytes (t : Team) (c : Nat) : List Byte :=
  t.stagePart c false ++ t.queueBytes ++ (if t.pair then t.stagePart c true else [])

/-- The free blocks of a half's pools. -/
def Half.poolBytes (h : Half) : List Byte := (List.range 64).flatMap fun i => leBytes 4 ((h.pools[i]?).getD 0)

/-- An entry of the reissue list: an instruction and the group that issued it. -/
abbrev Reissue := BitVec 256 × Nat

/-- The bytes of an entry of the reissue list. -/
def reissueBytes (r : Reissue) : List Byte := padTo 64 (leBytes 32 r.1.toNat ++ leBytes 4 r.2)

/-- The header of an image. -/
def Team.headerBytes (t : Team) (r : Grid) (gsize n : Nat) : List Byte :=
  let k := r.kobj
  padTo 256 <| leBytes 4 0x4B494D47 ++ leBytes 4 1 ++ leBytes 4 r.id.toNat ++ leBytes 4 t.id.toNat
    ++ leBytes 8 r.packet.kobj.toNat ++ leBytes 4 t.nGroups ++ [BitVec.ofNat 8 t.width, BitVec.ofNat 8 (t.regs / 8),
      BitVec.ofNat 8 ((if t.pair then 1 else 0) + (if k.persistent then 4 else 0)), 0]
    ++ leBytes 4 t.core ++ leBytes 4 0 ++ leBytes 4 n ++ leBytes 4 gsize ++ List.replicate 16 0
    ++ (List.range 16).flatMap fun b => leBytes 4 ((t.phase[b]?).getD 0)

/-- The group of a team with an index; none where a reset of its core has taken it away. -/
def State.member (s : State) (t : Team) (idx : Nat) : Option (Nat × Group) := (s.groupsOf t.grid t.id).find? fun x => x.2.idx = idx

/-- The groups of a team in index order. -/
def State.teamGroups (s : State) (t : Team) : List (Nat × Group) := (List.range t.nGroups).filterMap (s.member t)

/-- What the reissue list holds of a group: operations that have faulted and were not delivered, those that wait for translation, and
what it has still to issue again itself, an abandoned BDIVQR among it (spec 19 R338, R340, 09 R213). -/
def Group.reissues (g : Group) : List Reissue :=
  (g.due.map Due.word ++ (g.ops.filter fun o => o.phase = .paused || o.fault.isSome).map Op.word ++ g.redo).map fun w => (w, g.idx)

/-- GSIZE of a team's image: the sections have one size, which holds the largest (spec 19 R340). -/
def State.imageGsize (s : State) (t : Team) : Nat :=
  ((s.teamGroups t).map fun x => groupSize x.2.width x.2.vregs.length x.2.accSlots).foldl max 0

/-- The section of group i of a team (spec 19 R340): unspecified for one that a reset of its core has taken away (log 3, 86). -/
def State.sectionBytes (s : State) (t : Team) (c gsize i : Nat) : List Byte :=
  match s.member t i with
  | some x => padTo gsize (s.groupBytes x.2)
  | none => (List.range gsize).map fun j => Config.freeByte c (2 ^ 32 + i * gsize + j)

/-- A team's image, without Boom, which is retained, and without pending signals, since none of its signals is in flight between two
steps (spec 19 R339, R340; log 70). c: a free value's number. -/
def State.imageBytes (s : State) (c : Nat) (t : Team) (r : Grid) : List Byte :=
  let gsize := s.imageGsize t
  let list := ((s.teamGroups t).map Prod.snd).flatMap Group.reissues
  t.headerBytes r gsize list.length ++ (List.range t.nGroups).flatMap (s.sectionBytes t c gsize)
    ++ (let st := t.stageBytes c; padTo (roundUp st.length 256) st)
    ++ t.even.poolBytes ++ (if t.pair then t.odd.poolBytes else []) ++ list.flatMap reissueBytes

/-- What an image's header says. -/
structure ImageHead where
  grid : W32
  team : W32
  origin : Nat
  nSig : Nat
  nReissue : Nat
  gsize : Nat
  boomSaved : Bool
  phase : List Nat
  ok : Bool
deriving DecidableEq, Repr

/-- The header that 256 bytes hold. -/
def imageHead (bs : List Byte) : ImageHead :=
  { grid := bitsAt 32 bs 8 4, team := bitsAt 32 bs 12 4, origin := fieldAt bs 32 4, nSig := fieldAt bs 36 4, nReissue := fieldAt bs 40 4,
    gsize := fieldAt bs 44 4, boomSaved := fieldAt bs 30 1 / 2 % 2 = 1,
    phase := (List.range 16).map fun b => fieldAt bs (64 + 4 * b) 4,
    ok := fieldAt bs 0 4 = 0x4B494D47 && fieldAt bs 4 4 = 1 }

/-- A mask of lanes for which a bit of the lane flags stands. -/
def flagMask (bs : List Byte) (w bit : Nat) : Mask := maskOf w fun i => (fieldAt bs (1280 + 16 * i + 8) 1).testBit bit

/-- The saved CSRs taken over. -/
def Group.loadCsrs (g : Group) (bs : List Byte) : Group :=
  let c (i : Nat) : W64 := bitsAt 64 bs (512 + 8 * i) 8
  let stat := c 10
  { g with prio := (c 0).setWidth 2, cdepth := (c 1).setWidth 4, ntthr := (c 2).setWidth 16, pform := (c 3).setWidth 32,
           strict := (c 4).getLsbD 0, xbase := c 5, xcause := (c 6).setWidth 32, xval := c 7, xpc := c 8, xrpc := c 9,
           trap := stat.getLsbD 0, inchain := stat.getLsbD 1, chpos := stat.extractLsb' 2 3, tokwait := c 11,
           pmc := (List.range 8).map fun i => (c (12 + i)).setWidth 48,
           pmsel := (List.range 8).map fun i => (c (20 + i)).setWidth 5, pmovf := (c 28).setWidth 8, pmctl := (c 29).setWidth 8 }

/-- The control part taken over. -/
def Group.loadControl (g : Group) (bs : List Byte) : Group :=
  let n := fieldAt bs 785 1
  { g with pc := bitsAt 64 bs 768 8, yc := bitsAt 2 bs 784 1, window := bitsAt 2 bs 788 1,
           arr := (List.range 16).map fun b => fieldAt bs (792 + 4 * b) 4, cueLeft := bitsAt 64 bs 856 8,
           inline := (List.range n).map fun i =>
             { at_ := bitsAt 64 bs (864 + 24 * i) 8, exec := bitsAt 64 bs (872 + 24 * i) 8, lanes := bitsAt 64 bs (880 + 24 * i) 8 } }

/-- The vector registers, predicates, accumulators and lane states taken over. -/
def Group.loadLanes (g : Group) (bs : List Byte) : Group :=
  let w := g.width
  let n := fieldAt bs 786 2
  let at_ := 1280 + 16 * w
  let tags := at_ + 4 * w * n
  let marks := tags + n
  { g with lanePC := (List.range w).map fun i => bitsAt 64 bs (1280 + 16 * i) 8,
           parked := flagMask bs w 0, served := flagMask bs w 1, stored := flagMask bs w 2, exited := flagMask bs w 3,
           preds := (List.range 48).map fun k => maskOf w fun i => (fieldAt bs (1280 + 16 * i + 10) 6).testBit k,
           vregs := (List.range n).map fun k =>
             { val := (List.range w).map fun i => bitsAt 32 bs (at_ + 4 * (w * k + i)) 4,
               mark := bitsAt 64 bs (marks + w / 8 * k) (w / 8), tag := bitsAt 8 bs (tags + k) 1 },
           acc := Memory.patch [] 0 ((bs.drop (marks + n * w / 8)).take (65536 * g.accSlots)) }

/-- A group as its section has it, from the group of a launch of the same team. -/
def Group.load (g : Group) (bs : List Byte) : Group :=
  let h := ((g.loadCsrs bs).loadControl bs).loadLanes bs
  let all := h.exited = allLanes h.width
  { h with sregs := (List.range 126).map fun k => bitsAt 32 bs (4 * k) 4, exec := bitsAt 64 bs 504 8, gone := all }

/-- The queues that a queue area holds. -/
def loadQueues (bs : List Byte) (w n : Nat) : List (List QEntry) :=
  let size := 4 * w + 8
  (List.range n).map fun q =>
    ((List.range 16).filterMap fun i =>
      let e := (bs.drop (size * (16 * q + i))).take size
      if (fieldAt e (4 * w + 4) 4) % 2 = 1 then
        some { val := (List.range w).map fun l => bitsAt 32 e (4 * l) 4, by_ := fieldAt e (4 * w) 4 }
      else none)

/-- A half's Stage from its part of the Stage section. -/
def Half.load (h : Half) (bs pools : List Byte) : Half :=
  { h with cells := Memory.patch (Memory.patch [] 0 (bs.take h.stage)) (2 ^ 19) ((bs.drop h.stage).take (32768 * h.banks.length)),
           pools := (List.range 64).map fun i => fieldAt pools (4 * i) 4 }

/-- A team's phases, Stage, queues and pools taken over from the Stage section and the pools. -/
def Team.load (t : Team) (hd : ImageHead) (stage pools : List Byte) : Team :=
  let n := t.even.stage + 32768 * t.even.banks.length
  let q := t.queues.length * 16 * (4 * t.width + 8)
  let even := t.even.load stage (pools.take 256)
  { t with phase := hd.phase, queues := loadQueues ((stage.drop n).take q) t.width t.queues.length, even := even,
           odd := if t.pair then t.odd.load (stage.drop (n + q)) (pools.drop 256) else t.odd }

end Sys2Proof.Machine
end

