-- ==== Sys2Proof/Machine/LaneForms.lean ====
section
/-! DEFINITION. Movement between lanes, reductions and scans, and rendezvous between groups (spec 09 R223 to R227, 03 R92,
R93). -/

namespace Sys2Proof.Machine

/-- A lane move: lane i takes what the operand holds in lane j i, with its markers (spec 09 R223, 02 R59). -/
def laneMove (j : Iss → Nat → Nat) : Iss → State → Eff := pure1 fun x _ =>
  let r := x.deliver x.wide fun i => BitVec.ofNat 64 (x.elem x.e.sa x.e.ty 0 false (j x i) 0)
  match x.e.dst, x.e.sa with
  | .v k, .v a => (r.1.moveMarks x k (if x.wide then 2 else 1) fun w i => x.g.marked (a.val + w) (j x i), r.2)
  | _, _ => r

/-- VSHUF.idx (spec 09 R223). -/
def execVshufIdx (e : Enc) (s : State) : Host.Outcome State Fault Refusal := issue 0x83 0 e s (laneMove (shufLane 0))
/-- VSHUF.xor (spec 09 R223). -/
def execVshufXor (e : Enc) (s : State) : Host.Outcome State Fault Refusal := issue 0x83 1 e s (laneMove (shufLane 1))
/-- VSHUF.up (spec 09 R223). -/
def execVshufUp (e : Enc) (s : State) : Host.Outcome State Fault Refusal := issue 0x83 2 e s (laneMove (shufLane 2))
/-- VSHUF.down (spec 09 R223). -/
def execVshufDown (e : Enc) (s : State) : Host.Outcome State Fault Refusal := issue 0x83 3 e s (laneMove (shufLane 3))
/-- VBCAST (spec 09 R223). -/
def execVbcast (e : Enc) (s : State) : Host.Outcome State Fault Refusal := issue 0x84 0 e s (laneMove fun x _ => x.uniform % x.g.width)
/-- VROTL (spec 09 R223). -/
def execVrotl (e : Enc) (s : State) : Host.Outcome State Fault Refusal := issue 0x87 0 e s (laneMove rotlLane)

/-- The combining operation of VRED and VSCAN on two patterns: a float add rounds, a float minimum or maximum returns an operand
(spec 09 R224, R225, 03 R92, R93). f: the operation on integers. -/
def combine (x : Iss) (f : Bin) (fl : Nat → Nat → Nat) (a b : Nat) : Nat :=
  if tyInt x.e.ty then f x.e.ty false a b else fl a b

/-- One level of the tree of R92: neighbours combined, a lone one unchanged. -/
def treeLevel (f : Nat → Nat → Nat) : List (Option Nat) → List (Option Nat)
  | a :: b :: l => (match a, b with
      | some p, some q => some (f p q)
      | some p, none => some p
      | none, q => q) :: treeLevel f l
  | l => l

/-- The root of the tree of R92 after log2 of the width levels. -/
def treeRoot (f : Nat → Nat → Nat) (l : List (Option Nat)) : Nat :=
  (((List.range 6).foldl (fun l _ => treeLevel f l) l).head?.getD none).getD 0

/-- VRED: element el of the qualifying lanes reduced (spec 09 R224). -/
def reduceEff (f : Iss → Nat → Nat → Nat) : Iss → State → Eff := pure1 fun x _ =>
  let el (e : Nat) : Nat := treeRoot (f x) ((List.range x.g.width).map fun i =>
    if x.qual.getLsbD i then some (x.el x.e.sa i e) else none)
  let v := Iss.packResult x.e.ty x.e.pk ((Iss.elems x.e.ty x.e.pk |> List.range).map el)
  x.deliver x.two fun _ => v

/-- The combination of the qualifying lanes up to lane i in lane order (spec 09 R225, 03 R93). first: how the first of them stands. -/
def prefixOf (x : Iss) (first : Nat → Nat) (f : Nat → Nat → Nat) (i e : Nat) : Nat :=
  let vs := ((List.range (i + 1)).filter fun j => x.qual.getLsbD j).map fun j => x.el x.e.sa j e
  match vs with
  | [] => 0
  | v :: rest => rest.foldl f (first v)

/-- The first term of a float VSCAN: a value stands as it is, a NaN is quieted (spec 03 R76, R93, 09 R225). DESIGN CHOICE: in a VSCAN.add a
-0 stays -0, as no +0 of an empty prefix is added to it (log 74). -/
def quietNan (f : Fmt) (p : Nat) : Nat := if (decodeF f p).isNan then encodeV f false 0 (decodeF f p) else p

/-- VSCAN (spec 09 R225). -/
def scanEff (f : Iss → Nat → Nat → Nat) : Iss → State → Eff :=
  elementwise fun x i e => prefixOf x (if tyInt x.e.ty then id else quietNan x.fmt) (f x) i e

/-- Sum of two patterns in a reduction or a scan. -/
def redAdd (x : Iss) : Nat → Nat → Nat := combine x addBin (addF x.fmt false x.e.rm)
/-- Minimum. -/
def redMin (x : Iss) : Nat → Nat → Nat := combine x minBin (minMaxF x.fmt false)
/-- Maximum. -/
def redMax (x : Iss) : Nat → Nat → Nat := combine x maxBin (minMaxF x.fmt true)
/-- Bitwise operations, on integer types only. -/
def redBits (f : Bin) (x : Iss) : Nat → Nat → Nat := f x.e.ty false

/-- VRED.add (spec 09 R224). -/
def execVredAdd (e : Enc) (s : State) : Host.Outcome State Fault Refusal := issue 0x85 0 e s (reduceEff redAdd)
/-- VRED.min (spec 09 R224). -/
def execVredMin (e : Enc) (s : State) : Host.Outcome State Fault Refusal := issue 0x85 1 e s (reduceEff redMin)
/-- VRED.max (spec 09 R224). -/
def execVredMax (e : Enc) (s : State) : Host.Outcome State Fault Refusal := issue 0x85 2 e s (reduceEff redMax)
/-- VRED.and (spec 09 R224). -/
def execVredAnd (e : Enc) (s : State) : Host.Outcome State Fault Refusal := issue 0x85 3 e s (reduceEff (redBits andBin))
/-- VRED.or (spec 09 R224). -/
def execVredOr (e : Enc) (s : State) : Host.Outcome State Fault Refusal := issue 0x85 4 e s (reduceEff (redBits orBin))
/-- VRED.xor (spec 09 R224). -/
def execVredXor (e : Enc) (s : State) : Host.Outcome State Fault Refusal := issue 0x85 5 e s (reduceEff (redBits xorBin))
/-- VSCAN.add (spec 09 R225). -/
def execVscanAdd (e : Enc) (s : State) : Host.Outcome State Fault Refusal := issue 0x86 0 e s (scanEff redAdd)
/-- VSCAN.min (spec 09 R225). -/
def execVscanMin (e : Enc) (s : State) : Host.Outcome State Fault Refusal := issue 0x86 1 e s (scanEff redMin)
/-- VSCAN.max (spec 09 R225). -/
def execVscanMax (e : Enc) (s : State) : Host.Outcome State Fault Refusal := issue 0x86 2 e s (scanEff redMax)
/-- VSCAN.and (spec 09 R225). -/
def execVscanAnd (e : Enc) (s : State) : Host.Outcome State Fault Refusal := issue 0x86 3 e s (scanEff (redBits andBin))
/-- VSCAN.or (spec 09 R225). -/
def execVscanOr (e : Enc) (s : State) : Host.Outcome State Fault Refusal := issue 0x86 4 e s (scanEff (redBits orBin))
/-- VSCAN.xor (spec 09 R225). -/
def execVscanXor (e : Enc) (s : State) : Host.Outcome State Fault Refusal := issue 0x86 5 e s (scanEff (redBits xorBin))

/-- A group queued on a rendezvous slot (spec 09 R226). -/
def rendezvousEff (kind : RvKind) (x : Iss) (s : State) : Eff :=
  .stay ((s.modGroup x.gi fun g => { g with wait := .rv }).modTeam x.g fun t =>
    { t with rv := t.rv ++ [{ g := x.gi, slot := (x.word x.e.sa x.ul).toNat, kind := kind }] })

/-- RVSEND (spec 09 R226). -/
def execRvsend (e : Enc) (s : State) : Host.Outcome State Fault Refusal := issue 0x88 0 e s fun x s =>
  rendezvousEff (.send (match x.e.sb with
    | .v k => k.val
    | _ => 0)) x s
/-- RVRECV (spec 09 R226). -/
def execRvrecv (e : Enc) (s : State) : Host.Outcome State Fault Refusal := issue 0x89 0 e s fun x s => rendezvousEff (.recv x.qual x.e.dst x.e.nw) x s

/-- Whether a waiting rendezvous sends. -/
def RvWait.sends (w : RvWait) : Bool :=
  match w.kind with
  | .send _ => true
  | .recv _ _ _ => false

/-- The oldest sender and the oldest receiver of a slot. -/
def Team.rvPair (t : Team) (slot : Nat) : Option (RvWait × RvWait) :=
  match t.rv.find? fun w => w.slot = slot && w.sends, t.rv.find? fun w => w.slot = slot && !w.sends with
  | some a, some b => some (a, b)
  | _, _ => none

/-- The register that a waiting rendezvous reads or writes. -/
def RvWait.register (w : RvWait) : List Res :=
  match w.kind with
  | .send k => [.v k]
  | .recv _ (.v d) false => [.v d]
  | .recv _ _ _ => []

/-- The pairing that a slot of a team can make now: none while a copy has still to land in a register of it (spec 09 R226, 10 R251). -/
def State.rvReady (s : State) (ti slot : Nat) : Option (RvWait × RvWait) :=
  ((s.teams[ti]?).bind fun t => t.rvPair slot).filter fun p => s.unguarded p.1.g p.1.register && s.unguarded p.2.g p.2.register

/-- What a receiver takes at the pairing: the sender's register as it then stands, with its markers (spec 09 R226, 02 R59). from_: the
sender. -/
def Group.receive (g from_ : Group) (a b : RvWait) : Group :=
  match a.kind, b.kind with
  | .send k, .recv lanes (.v d) false =>
    g.setV d lanes ((List.range g.width).map (from_.v k)) (maskOf g.width (from_.marked k)) g.width
  | _, _ => g

/-- RENDEZVOUS_PAIRING of a slot of a team (spec 09 R226), a release by the sender, before which its accesses are performed (04 R124);
input: the team's index and the slot. -/
def execRendezvousPairing (s : State) : Host.Outcome State Fault Refusal :=
  match s.input with
  | .index2 ti slot =>
    match s.rvReady ti slot with
    | none => .next s
    | some (a, b) =>
      let s0 := s.settleAll a.g
      let s1 : State := { s0 with teams := s0.teams.modify ti fun t => { t with rv := (t.rv.erase a).erase b } }
      match s.groups[a.g]? with
      | none => .next s1
      | some from_ =>
        .next ((s1.modGroup b.g fun g => (g.receive from_ a b).resume 8 s.cycle).modGroup a.g fun g => g.resume 8 s.cycle)
  | _ => .next s

end Sys2Proof.Machine
end

