-- ==== Sys2Proof/Machine/Preempt.lean ====
section
/-! DEFINITION. Pre-emption and restore of teams (spec 19 R337 to R341). -/

namespace Sys2Proof.Machine

/-- STATUS values of PECMD (spec 19 R337). -/
def stBadMap : Byte := 0x52
def stNoFit : Byte := 0x53
def stBadImg : Byte := 0x57
def stNotFound : Byte := 0x58

/-- A command complete, with its status. -/
def State.peDone (s : State) (st : Byte) : State := { s with pecmd := { s.pecmd with op := 0, status := st } }

/-- The TEAMID that names every team of a grid. -/
def allTeams : W32 := 0xFFFFFFFF

/-- The image addresses of a command's teams, or none where the array faults or an address is not aligned (spec 19 R337). -/
def State.imagesOf (s : State) (r : Grid) (teams : List W32) : Option (List (W32 × W64)) :=
  let c := s.pecmd
  let all := if c.team = allTeams then
      (s.readD r.ctx c.image.toNat (8 * r.gcnt.toNat)).map fun bs => (List.range r.gcnt.toNat).map fun i => bitsAt 64 bs (8 * i) 8
    else some [c.image]
  all.bind fun as =>
    if (c.image :: as).any fun a => a.toNat % 4096 != 0 then none
    else some (teams.map fun t => (t, if c.team = allTeams then (as[t.toNat]?).getD 0 else c.image))

/-- A waiting CUEPOP withdrawn: what its served lanes received is written, the others are left to serve (spec 05 R152). -/
def State.withdrawPop (s : State) (gi : Nat) : State :=
  let left := ((s.cue.pops.filter fun p => p.g = gi).map fun p => oneLane p.lane).foldl (· ||| ·) 0
  let s1 := s.modGroup gi fun g =>
    let mine := g.ops.filter fun o => o.cls = some .cq && o.phase = .started
    let g1 := (mine.flatMap Op.lands).foldl Group.land g
    { g1 with ops := g.ops.filter (fun o => !mine.contains o), cueLeft := left, wait := .ready }
  { s1 with cue := { s1.cue with pops := s1.cue.pops.filter fun p => p.g != gi } }

/-- Whether a group's last MXPAIR is paired, so that it is drained and not withdrawn (spec 11 R265). -/
def State.paired (s : State) (gi : Nat) (g : Group) : Bool :=
  (s.teamOf g).any fun t => (t.pairEven ++ t.pairOdd).any fun w => w.g = gi && w.op + 1 = g.opSeq && w.paired

/-- A waiting form of a group withdrawn, to be issued again (spec 19 R338 step 2): an MXPAIR that stands in the reissue list goes back to its
head. -/
def State.withdraw (s : State) (gi : Nat) (g : Group) : State :=
  let ready (s : State) : State := s.modGroup gi fun g => { g with wait := .ready }
  match g.wait with
  | .cue => if s.cue.pops.any fun p => p.g = gi then s.withdrawPop gi else s
  | .pair =>
    if s.paired gi g then s
    else
    let id := g.opSeq - 1
    let again : List (BitVec 256) := if (s.teamOf g).any fun t => (t.pairEven ++ t.pairOdd).any fun w => w.g = gi && w.op = id && w.reissued
      then ((g.op? id).map Op.word).toList else []
    let s1 := s.modTeam g fun t => { t with pairEven := t.pairEven.filter (fun w => w.g != gi || w.op != id),
                                            pairOdd := t.pairOdd.filter fun w => w.g != gi || w.op != id }
    s1.modGroup gi fun g => { g with wait := .ready, ops := g.ops.filter (fun o => o.id != id), redo := again ++ g.redo }
  | .rv => ready (s.modTeam g fun t => { t with rv := t.rv.filter fun w => w.g != gi })
  | .queue => ready (s.modTeam g fun t => { t with pushWait := t.pushWait.filter (fun w => w.g != gi),
                                                   popWait := t.popWait.filter fun w => w.g != gi })
  | .regs => ready (s.modTeam g fun t => { t with claims := t.claims.filter fun c => c.g != gi })
  | _ => s

/-- Whether an operation is a BDIVQR in progress. -/
def Op.divides (o : Op) : Bool := o.cls.isNone && o.phase = .queued && o.word.extractLsb' 2 8 = 0x99

/-- A group that stops: a BDIVQR in progress is abandoned, to be issued again (spec 09 R213). -/
def Group.stop (g : Group) : Group :=
  { g with stopped := true, redo := (g.ops.filter Op.divides).map Op.word ++ g.redo, ops := g.ops.filter fun o => !o.divides }

/-- A team stopped at its groups' next instruction boundaries, for a pre-emption with an image (spec 19 R338 steps 1 and 2). -/
def State.stopTeam (s : State) (grid team : W32) (image : W64) : State :=
  let s1 := (s.groupsOf grid team).foldl (fun s (gi, g) =>
    (s.withdraw gi g).modGroup gi Group.stop) s
  match s1.teamIdx grid team with
  | none => s1
  | some ti => { s1 with teams := s1.teams.modify ti fun t => { t with stop := some image } }

/-- A pre-emption begun, or refused (spec 19 R337). -/
def State.startPreempt (s : State) : State :=
  let c := s.pecmd
  match s.grid? c.grid with
  | none => s.peDone stNotFound
  | some r =>
    let here := (s.teams.filter fun t => t.grid = r.id && (c.team = allTeams || t.id = c.team)).map Team.id
    if here.isEmpty || r.fatal || (r.kobj.persistent && c.team != allTeams) then s.peDone stNotFound
    else
      match s.imagesOf r here with
      | none => s.peDone stBadImg
      | some ims => ims.foldl (fun s (t, a) => s.stopTeam r.id t a) s

/-- A command written to PECMD: ignored while one runs (spec 19 R337). -/
def State.peWrite (s : State) (image : W64) (grid team : W32) (target : BitVec 16) (op : BitVec 4) : State :=
  if s.pecmd.op != 0 then s
  else { s with pecmd := { s.pecmd with image := image, grid := grid, team := team, target := target, op := op } }

/-- The teams that are stopping; those of a fatal context are not saved (spec 19 R342). -/
def State.stopping (s : State) : List Team :=
  s.teams.filter fun t => t.stop.isSome && !((s.grid? t.grid).any Grid.fatal)

/-- Whether every operation of the stopping teams is drained (spec 19 R338 step 3). -/
def State.drained (s : State) : Bool :=
  s.stopping.all fun t =>
    (s.groupsOf t.grid t.id).all fun (_, g) =>
      g.ops.all fun o => o.phase = .done || o.phase = .paused

/-- A team that goes on where it stopped (spec 19 R337): a chain that is open from its first member (02 R64); a group that a fault record
holds stays as it is until the driver answers (19 R336). -/
def State.unstop (s : State) (t : Team) : State :=
  let s1 := (s.groupsOf t.grid t.id).foldl (fun s (gi, g) =>
    match g.wait with
    | .held _ => s.modGroup gi fun g => { g with stopped := false }
    | _ =>
      let s1 := s.modGroup gi fun g => { g with stopped := false, pc := g.resumePc, chain := none, since := s.cycle }
      if g.chain.isSome then s1.noteReplay gi else s1) s
  match s1.teamIdx t.grid t.id with
  | none => s1
  | some ti => { s1 with teams := s1.teams.modify ti fun t => { t with stop := none } }

/-- Bytes of an image made unspecified where its lines can be written (spec 19 R337; log 3). -/
def State.freeImage (s : State) (ctx : W32) (a n : Nat) : State :=
  (lineChunks a n).foldl (fun s c =>
    let f := s.freeBytes c.2
    (f.2.writeD ctx c.1 f.1).getD s) s

/-- The counters of a team's groups as they stand when it is saved (spec 19 R343). -/
def State.commitTeam (s : State) (t : Team) : State := (s.groupsOf t.grid t.id).foldl (fun s x => s.commit x.1) s

/-- A number for the free values of a team's image, which one with a lost half needs (log 3). -/
def State.drawFor (s : State) (t : Team) : Nat × State := if t.lost.isSome then s.draw else (s.freeCount, s)

/-- The images of teams written, or none where one faults. -/
def State.writeImages (s : State) : List Team → Option State
  | [] => some s
  | t :: ts =>
    match s.grid? t.grid, t.stop with
    | some r, some a =>
      let d := s.drawFor t
      (d.2.writeD r.ctx a.toNat (d.2.imageBytes d.1 t r)).bind fun s1 => State.writeImages s1 ts
    | _, _ => State.writeImages s ts

/-- The barrier that a group waits in, and the phase it waits for. -/
def Group.barrier? (g : Group) : Option (Nat × Nat) :=
  match g.wait with
  | .barrier b n => some (b, n)
  | _ => none

/-- The Boom content of a half as it is retained: unspecified where a reset of its core has taken it away (spec 19 R339, R342; log 3, 86). -/
def Team.boomLeft (t : Team) (c : Nat) (odd : Bool) : Memory :=
  if t.lost = some odd then cellsOf 0 ((List.range (t.half (!odd)).boom).map fun i => Config.freeByte c (2 ^ 48 + i)) else (t.half odd).boomCells

/-- The record of a saved team. c: a free value's number. -/
def State.preTeam (s : State) (c : Nat) (t : Team) : PreTeam :=
  let each {α : Type} (f : Group → α) (z : α) : List α := (List.range t.nGroups).map fun i => ((s.member t i).map fun x => f x.2).getD z
  { team := t.id, image := t.stop.getD 0, core := t.core, waits := each Group.barrier? none, tasks := each Group.task false,
    replays := each (fun g => g.chain.isSome) false, firsts := each Group.chfirst 0, kept := 0 < max t.even.boom t.odd.boom,
    boomEven := t.boomLeft c false, boomOdd := t.boomLeft c true, stackBlocks := t.stackBlocks, lost := t.lost }

/-- A saved team leaves its cores; its Boom content is retained (spec 19 R338 step 5, R339, 21 R363 PREEMPT). -/
def State.leave (s : State) (t : Team) : State :=
  let d := s.drawFor t
  ((d.2.reelTeam t 0x1A).dropTeam t.grid t.id).modGrid t.grid fun g =>
    { g with running := g.running - 1, pre := g.pre ++ [d.2.preTeam d.1 t] }

/-- PREEMPT (spec 19 R337, R338): the driver's command; input: the command's fields. -/
def execPreempt (s : State) : Host.Outcome State Fault Refusal :=
  match s.input with
  | .team image grid team target =>
    .next (if s.pecmd.op != 0 then s else (s.peWrite image grid team target 1).startPreempt)
  | _ => .next s

/-- PREEMPT_IMAGE_WRITE (spec 19 R338 steps 3 to 5): once the drain is over. A fault on an image lets the teams go on. -/
def execPreemptImageWrite (s : State) : Host.Outcome State Fault Refusal :=
  if s.pecmd.op != 1 || !s.drained then .next s
  else
    let ts := s.stopping
    if ts.isEmpty then .next (s.peDone stNotFound)
    else
      match (ts.foldl State.commitTeam s).writeImages ts with
      | some s1 => .next ((ts.foldl State.leave s1).peDone 0)
      | none =>
        let s1 := ts.foldl (fun s t => match s.grid? t.grid, t.stop with
          | some r, some a => s.freeImage r.ctx a.toNat (s.imageBytes 0 t r).length
          | _, _ => s) s
        .next ((ts.foldl State.unstop s1).peDone stBadImg)

/-- The effect of issuing an engine form again (spec 19 R340). -/
def reissueEff (opc : Nat) : Option (Iss → State → Eff) :=
  match opc with
  | 0x99 => some bdivqrEff | 0x9E => some cresEff | 0xB0 => some xcopyEff | 0xB1 => some xgathEff | 0xB2 => some xchainEff | 0xB3 => some xregEff
  | 0xB6 => some hallocEff | 0xB7 => some hfreeEff | 0xC0 => some mxmacEff | 0xC1 => some mxpairEff | 0xC2 => some mxrdEff
  | 0xC3 => some mxwrEff | 0xC4 => some mxzEff | 0xC5 => some boomldEff | 0xC6 => some bmulEff | 0xC7 => some (nttEff false)
  | 0xC8 => some (nttEff true) | 0xC9 => some kswitchEff | 0xCA => some xcrtEff | 0xD7 => some skldEff
  | 0xD8 => some (skrefEff true) | 0xD9 => some (skrefEff false) | 0xDA => some skcopyEff
  | _ => none

/-- What issuing an instruction of a group again does (spec 19 R340, R341): one of lanes of which none qualifies now has no effect (01 R21).
One that does not go through yet stays to be issued again. -/
def State.redoWord (s : State) (gi : Nat) (g : Group) (w : BitVec 256) : State :=
  let s0 := s.modGroup gi fun h => { h with redo := h.redo.drop 1 }
  match decodeBytes (leBytes 32 w.toNat) with
  | .ok (.lnest e) => s0.addNest gi g e
  | .ok i =>
    match issOf gi g i with
    | none => s0
    | some x => match reissueEff x.opc with
      | none => s0
      | some f => if !x.e.u && !x.runs then s0 else match f x s0 with
        | .done s1 _ | .jump s1 => s1
        | .stay s1 => if g.gone then s1.modGroup gi fun h => { h with wait := g.wait } else s1
        | .trap s1 code reason xval => if g.gone then s1 else s1.takeTrap gi false code reason xval none
        | .hold s1 kind va level => (s1.modGroup gi fun h => { h with redo := g.redo }).holdGroup gi false kind va level
        | .again s1 reason budgets => s1.modGroup gi fun h => { h with redo := g.redo, wait := .again reason s.cycle budgets }
  | .error _ => s0

/-- The first of the instructions that a group has to issue again, with the registers as they stand, where nothing holds it back; it takes
the quadrant's slot (spec 01 R16). -/
def State.redo (s : State) (gi : Nat) : State :=
  match s.groups[gi]? with
  | none => s
  | some g => match g.redo with
    | [] => s
    | w :: _ =>
      if !g.atIssue || s.reasonOf gi g != 0 then s
      else
        let s1 := s.redoWord gi g w
        if (s1.groups[gi]?).any fun h => h.redo.length < g.redo.length then s1.noteIssued gi g (g.slotCycles = 2) none else s1

/-- A pre-empted team to be restored: its record, its header. -/
abbrev Saved := PreTeam × ImageHead

/-- The core that a restore's TARGET gives a team, or none for "any" (spec 19 R337). -/
def targetCore (target : BitVec 16) (hd : ImageHead) : Option Nat :=
  if target = 0xFFFE then none else if target = 0xFFFF then some hd.origin else some target.toNat

/-- A team put where its restore wants it. -/
def State.placeSaved (s : State) (r : Grid) (target : BitVec 16) (p : Saved) : Option State :=
  match targetCore target p.2 with
  | some c => s.placeAt r p.1.team c p.1.stackBlocks
  | none =>
    let hot (x : Nat) : Bool := (s.siteTemp r.kobj.pair x).2
    let order := byTemp (fun x => (s.siteTemp r.kobj.pair x).1) (sitesOf r.kobj.pair 255)
    (order.filter (!hot ·) ++ order.filter hot).findSome? fun c => s.placeAt r p.1.team c p.1.stackBlocks

/-- The Boom of a restored team: retained, or read from its image; a restore elsewhere first saves it there (spec 19 R339). DESIGN
CHOICE: where that write faults, the restore fails with BADIMG (log 95). -/
def State.restoreBoom (s : State) (r : Grid) (p : Saved) (t : Team) : Option State := do
  let n := r.kobj.boom.toNat * 65536
  let put (s : State) (even odd : Memory) : State :=
    match s.teamIdx t.grid t.id with
    | none => s
    | some ti => { s with teams := s.teams.modify ti fun t =>
        { t with even := { t.even with boomCells := even }, odd := { t.odd with boomCells := odd } } }
  if n = 0 then some s
  else if p.1.kept then
    let s1 ← if t.core = p.1.core then some s else s.putBoom r p.1
    some (put s1 p.1.boomEven p.1.boomOdd)
  else
    let bs ← s.readD r.ctx (p.1.image.toNat + boomOffset r.kobj p.2.gsize) (if t.pair then 2 * n else n)
    some (put s (Memory.patch [] 0 (bs.take n)) (if t.pair then Memory.patch [] 0 (bs.drop n) else []))

/-- A group that a reset of its core had taken away counts as exited (spec 19 R342; log 86). -/
def Group.asLost (g : Group) : Group := { g with gone := true, exited := allLanes g.width, exec := 0 }

/-- A group of a restored team: registers and state from its section, its barrier wait, its task; a chain resumed is recorded. -/
def State.restoreGroup (s : State) (r : Grid) (p : Saved) (gi : Nat) (g : Group) : Option State :=
  if p.1.lost = some g.half then some (s.setGroup gi g.asLost)
  else (s.readD r.ctx (p.1.image.toNat + 256 + p.2.gsize * g.idx) p.2.gsize).map fun bs =>
    let w : Wait := match (p.1.waits[g.idx]?).getD none with
      | some (b, n) => .barrier b n
      | none => .ready
    let first := (p.1.firsts[g.idx]?).getD 0
    let s1 := s.setGroup gi { g.load bs with wait := w, task := (p.1.tasks[g.idx]?).getD false, chfirst := first, since := s.cycle }
    if (p.1.replays[g.idx]?).getD false then s1.noteReplay gi else s1

/-- A pending signal of 16 bytes applied (spec 19 R340, R341 step 4; log 70): an arrival of the target group at the barrier that the
argument names; a landing in its vector register of that number, whose value the entry does not hold. A pairing finds nothing, since
waiting forms are issued again. -/
def State.signal (s : State) (t : Team) (bs : List Byte) : State :=
  let arg := fieldAt bs 8 8
  match s.member t (fieldAt bs 4 4), fieldAt bs 0 4 with
  | some (gi, g), 1 => s.arrive gi g arg
  | some (gi, g), 3 =>
    let free := s.freeBytes (4 * g.width)
    free.2.modGroup gi fun h => h.setV arg (allLanes g.width) (wordsOf free.1) 0 g.width
  | _, _ => s

/-- The pending signals applied. -/
def State.restoreSignals (s : State) (t : Team) (bs : List Byte) (n : Nat) : State :=
  (List.range n).foldl (fun s i => s.signal t ((bs.drop (16 * i)).take 16)) s

/-- The reissue list queued (spec 19 R341 step 5). -/
def State.restoreList (s : State) (t : Team) (bs : List Byte) (n : Nat) : State :=
  (List.range n).foldl (fun s i =>
    match s.member t (fieldAt bs (64 * i + 32) 4) with
    | some (gi, _) => s.modGroup gi fun g => { g with redo := g.redo ++ [bitsAt 256 bs (64 * i) 32] }
    | none => s) s

/-- A placed team filled from its image (spec 19 R341). -/
def State.fillTeam (s : State) (r : Grid) (p : Saved) : Option State := do
  let t ← (s.teamIdx r.id p.1.team).bind fun ti => s.teams[ti]?
  let hd := p.2
  let k := r.kobj
  let at_ := p.1.image.toNat + 256 + hd.gsize * t.nGroups
  let boom := p.1.image.toNat + boomOffset k hd.gsize
  let pools := if t.pair then 512 else 256
  let stage ← s.readD r.ctx at_ (boom - pools - at_)
  let pl ← s.readD r.ctx (boom - pools) pools
  let boomLen := if hd.boomSaved then k.boom.toNat * 65536 * (if t.pair then 2 else 1) else 0
  let sigs ← s.readD r.ctx (boom + boomLen) (16 * hd.nSig)
  let list ← s.readD r.ctx (boom + boomLen + signalSize hd.nSig) (64 * hd.nReissue)
  let s1 : State := { s with teams := s.teams.map fun q => if q.grid = t.grid && q.id = t.id then { q.load hd stage pl with lost := p.1.lost } else q }
  let s2 ← s1.restoreBoom r p t
  let s3 ← (s2.groupsOf t.grid t.id).foldlM (fun s (gi, g) => s.restoreGroup r p gi g) s2
  some ((((s3.restoreSignals t sigs hd.nSig).restoreList t list hd.nReissue).arrived r.id t.id 0x1B).teamExit r.id t.id)

/-- Records and headers of the teams to restore; none where an image faults or does not match (spec 19 R337). -/
def State.readHeads (s : State) (r : Grid) (ims : List (W32 × W64)) : Option (List Saved) :=
  ims.mapM fun (t, a) => do
    let p ← r.pre.find? fun p => p.team = t
    let bs ← s.readD r.ctx a.toNat 256
    let hd := imageHead bs
    if hd.ok && hd.grid = r.id && hd.team = t then some ({ p with image := a }, hd) else none

/-- The dies of the Cue heap of a grid whose teams stand on more of them than before (spec 05 R135, R136). DESIGN CHOICE:
the bound that UNRUNCAP sets on live entries is not tested again for the die that is added (log 80). -/
def State.spreadCue (s : State) (id : W32) : State :=
  let dies := (s.teams.filter fun t => t.grid = id).map fun t => dieOf t.core
  if s.ownsCue id then
    { s with cue := { s.cue with dies := (List.range 4).filter fun d => s.cue.dies.contains d || dies.contains d } }
  else s

/-- A restore: all teams or none (spec 19 R337, R341, 01 R42). -/
def State.restore (s : State) : State :=
  let c := s.pecmd
  match s.grid? c.grid with
  | none => s.peDone stNotFound
  | some r =>
    let ts := (r.pre.filter fun p => c.team = allTeams || p.team = c.team).map PreTeam.team
    let t := c.target.toNat
    if ts.isEmpty || r.fatal || (r.kobj.persistent && c.team != allTeams) then s.peDone stNotFound
    else if (144 ≤ t && t < 0xFFFE) || (t < 144 && r.kobj.pair && t % 2 = 1) then s.peDone stBadMap
    else
      match (s.imagesOf r ts).bind (s.readHeads r) with
      | none => s.peDone stBadImg
      | some ps =>
        let s0 := s.modGrid r.id fun g => { g with pre := g.pre.filter fun p => !ts.contains p.team }
        match ps.foldlM (fun s p => s.placeSaved r c.target p) s0 with
        | none => s.peDone stNoFit
        | some s1 => match ps.foldlM (fun s p => s.fillTeam r p) s1 with
          | none => s.peDone stBadImg
          | some s2 => (s2.spreadCue r.id).peDone 0

/-- RESTORE (spec 19 R337, R341): the driver's command; input: the command's fields. -/
def execRestore (s : State) : Host.Outcome State Fault Refusal :=
  match s.input with
  | .team image grid team target =>
    .next (if s.pecmd.op != 0 then s else (s.peWrite image grid team target 2).restore)
  | _ => .next s

end Sys2Proof.Machine
end

