-- ==== Sys2Proof/Machine/HostRegs.lean ====
section
/-! DEFINITION. The driver's registers: their values as they read, and what writing them does (spec 00 R11, 18 R311 to R326, 19 R331
to R341, 20 R348 to R360, 21 R384; log 32). -/

namespace Sys2Proof.Machine

/-- The bits of a word that fields of a register cover, its reserved bits 0 (spec 00 R11). -/
def fieldsOf (w : W64) (hi lo : Nat) : W64 := BitVec.ofNat 64 (w.toNat % 2 ^ (hi + 1) / 2 ^ lo * 2 ^ lo)

/-- BANKROLE with the value written: a role of 3 leaves its bank unchanged (spec 18 R322). -/
def newRoles (old w : W64) : W64 :=
  (List.range 32).foldl (fun acc b => if roleOf w b = 3 then acc else setRole acc b (roleOf w b)) old

/-- A core changed. -/
def State.setBankrole (s : State) (core : Nat) (w : W64) : State :=
  s.modCore core fun c => { c with bankrole := newRoles c.bankrole w }

/-- BANKROLE_WRITE; input: core and value. -/
def execBankroleWrite (s : State) : Host.Outcome State Fault Refusal :=
  match s.input with
  | .word core w => .next (s.setBankrole core w)
  | _ => .next s

/-- BANK_ROLE_TAKE_UP (spec 18 R323): a bank without an allocation takes up the role that the driver wants; the lines of one that served
L1 leave it; input: core, bank. -/
def execBankRoleTakeUp (s : State) : Host.Outcome State Fault Refusal :=
  match s.input with
  | .index2 core b =>
    .next (if b < 32 && !(s.usedBanks core).contains b
      then s.modCore core fun c => c.serve (setRole c.bankact b (roleOf c.bankrole b)) else s)
  | _ => .next s

/-- SMPCTL with a value written: EN from 0 to 1 starts sampling, with the last-sampled slots at 255 and SMPDROP cleared; another
write leaves the phase as it is (spec 21 R380, R384, R385). -/
def Sampler.control (m : Sampler) (w : W32) (cycle : Nat) : Sampler :=
  let p := max 16 (w.extractLsb' 0 16).toNat
  let m1 := { m with en := w.getLsbD 31, allctx := w.getLsbD 30, period := BitVec.ofNat 16 p }
  if w.getLsbD 31 && !m.en then { m1 with last := List.replicate 4 255, drop := 0, next := cycle + p } else m1

/-- SMPCTL_WRITE; input: core and value. -/
def execSmpctlWrite (s : State) : Host.Outcome State Fault Refusal :=
  match s.input with
  | .word core w => .next (s.modSmp core fun m => m.control (w.setWidth 32) s.cycle)
  | _ => .next s

/-- A command complete: KEYDATA is cleared (spec 20 R356). -/
def State.keyDone (s : State) (slot : Fin 64) (st : Byte) : State :=
  { s with keySlot := slot, keyStatus := st, keyOp := 0, keydata := List.replicate 64 0, keyDies := [] }

/-- Whether a key slot holds a key. -/
def State.keyLoaded (s : State) (slot : Fin 64) : Bool := ((s.keys[slot.val]?).getD none).isSome

/-- A load into a slot: LOADED where one is there (spec 20 R356). -/
def State.keyLoad (s : State) (slot : Fin 64) : State :=
  if s.keyOp != 0 then s
  else if s.keyLoaded slot then s.keyDone slot 0x61
  else ({ s with keys := s.keys.set slot.val (some (BitVec.ofNat 512 (leNat s.keydata))) } : State).keyDone slot 0

/-- A destroy of a slot begun: every slice has still to pass its instant; EMPTY where no key is there (spec 20 R356, R357). -/
def State.keyDestroy (s : State) (slot : Fin 64) : State :=
  if s.keyOp != 0 then s
  else if !s.keyLoaded slot then s.keyDone slot 0x60
  else { s with keySlot := slot, keyOp := 2, keyDies := [0, 1, 2, 3] }

/-- A slot number, modulo 64. -/
def slotOf (n : Nat) : Fin 64 := ⟨n % 64, Nat.mod_lt n (by decide)⟩

/-- KEY_LOAD; input: the slot. -/
def execKeyLoad (s : State) : Host.Outcome State Fault Refusal :=
  match s.input with
  | .index n => .next (s.keyLoad (slotOf n))
  | _ => .next s

/-- KEY_DESTROY; input: the slot. -/
def execKeyDestroy (s : State) : Host.Outcome State Fault Refusal :=
  match s.input with
  | .index n => .next (s.keyDestroy (slotOf n))
  | _ => .next s

/-- The accesses issued that go to a die under a key slot performed. -/
def State.settleKey (s : State) (slot : Fin 64) (die : Nat) : State :=
  (List.range s.groups.length).foldl (fun s gi => s.settle gi fun _ t => match t.place with
    | .dev pa key => key = some slot && homeDie pa = die
    | _ => false) s

/-- KEY_DESTROY_SLICE (spec 04 R118, 20 R357, 21 R363 KEYKILL): the slices of a die pass their instant. Accesses issued under the slot
come before it; lines that the memory-side cache holds there under it are dropped, dirty ones poisoned; with the last die the slot is
empty; input: the die. -/
def execKeyDestroySlice (s : State) : Host.Outcome State Fault Refusal :=
  match s.input with
  | .index d =>
    if s.keyOp != 2 || !s.keyDies.contains d then .next s
    else
      let s := s.settleKey s.keySlot d
      let mine (c : CacheLine) : Bool := c.slot = some s.keySlot && homeDie (128 * c.line) = d
      let dirty := (s.cache.filter fun c => mine c && c.dirty).map CacheLine.line
      let left := s.keyDies.filter (· != d)
      let s1 := { s with cache := s.cache.filter (fun c => !mine c), keyDies := left,
                         poison := s.poison ++ dirty.filter fun l => !s.poison.contains l }
      let s2 := s1.reel (144 + d) 0x12 none (s.keySlot.val * 2 ^ 32 + dirty.length)
      .next (if left.isEmpty then ({ s2 with keys := s2.keys.set s.keySlot.val none } : State).keyDone s.keySlot 0 else s2)
  | _ => .next s

/-- Bytes of device memory in a region (spec 20 R349). -/
def regionBytes : Nat := 48 * 2 ^ 30

/-- The map-out of a region proposed, with its CXL event record, or waiting for an earlier one (spec 20 R352). -/
def State.propose (s : State) (region : BitVec 4) : State :=
  if s.mapPend then
    if region = s.mapRegion || s.mapWait.contains region then s else { s with mapWait := s.mapWait ++ [region] }
  else { s with mapPend := true, mapRegion := region, cxlEvents := s.cxlEvents ++ [(regionBytes * region.toNat, regionBytes)] }

/-- The proposed map-out accepted; the next one waiting is then proposed (spec 20 R352). -/
def State.mapAck (s : State) : State :=
  if !s.mapPend then s
  else
    let s1 := { s with mapPend := false, regions := s.regions &&& ~~~(1#12 <<< s.mapRegion.toNat), mapWait := s.mapWait.drop 1 }
    match s.mapWait with
    | [] => s1
    | r :: _ => s1.propose r

/-- MAPOUT_ACK (spec 20 R352). -/
def execMapoutAck (s : State) : Host.Outcome State Fault Refusal := .next s.mapAck

/-- The words of PECMD written one by one (spec 19 R337): OP starts a command unless one runs, and 3 to 15 are ignored. -/
def State.pecmdWrite (s : State) (off : Nat) (w : W64) : State :=
  let c := s.pecmd
  if off = 0x18 then { s with pecmd := { c with image := w } }
  else if off = 0x14 then { s with pecmd := { c with grid := w.setWidth 32 } }
  else if off = 0x10 then { s with pecmd := { c with team := w.setWidth 32 } }
  else if off = 0x0E then { s with pecmd := { c with target := w.setWidth 16 } }
  else if off = 0 then
    let op := w.extractLsb' 0 4
    if c.op != 0 then s
    else if op = 1 then ({ s with pecmd := { c with op := op } } : State).startPreempt
    else if op = 2 then ({ s with pecmd := { c with op := op } } : State).restore
    else s
  else s

/-- KEYCMD written: ignored while a command runs; an OP other than 1 and 2 starts none (spec 20 R356). -/
def State.keycmdWrite (s : State) (w : W64) : State :=
  let slot := (w.extractLsb' 8 6).toFin
  let op := w.extractLsb' 0 4
  if s.keyOp != 0 then s
  else if op = 1 then s.keyLoad slot
  else if op = 2 then s.keyDestroy slot
  else { s with keySlot := slot }

/-- Eight bytes of KEYDATA written. -/
def State.keydataWrite (s : State) (i : Nat) (w : W64) : State :=
  if s.keyOp != 0 then s else { s with keydata := s.keydata.take (8 * i) ++ leBytes 8 w.toNat ++ s.keydata.drop (8 * i + 8) }

/-- A register of core c in its block of 64 bytes at 0x1_0000 written (spec 18 R320, R322). -/
def State.coreRegWrite (s : State) (c off : Nat) (w : W64) : State :=
  if off = 0 then s.setBankrole c w
  else if off = 8 then s.modCore c fun x => { x with bankauto := w.setWidth 32 }
  else s

/-- A register of a core's sampler written (spec 21 R384). -/
def State.smpRegWrite (s : State) (c off : Nat) (w : W64) : State :=
  if off = 0 then s.modSmp c fun m => m.control (w.setWidth 32) s.cycle
  else if off = 4 then s.modSmp c fun m => { m with ctx := w.setWidth 32 }
  else if off = 8 then s.modSmp c fun m => { m with base := fieldsOf w 51 12 ||| fieldsOf w 3 0 }
  else if off = 0x10 then s.modSmp c fun m => { m with head := w.setWidth 32 }
  else s

/-- A ring's REELMIR words written (spec 21 R384). -/
def State.mirrorWrite (s : State) (r : Nat) (second : Bool) (w : W64) : State :=
  { s with rings := s.rings.modify r fun x => { x with mir :=
      if second then { x.mir with head := w.extractLsb' 32 32 }
      else { x.mir with pa := fieldsOf w 51 12, en := w.getLsbD 4, size := w.extractLsb' 0 4 } } }

/-- A write of the register at an offset of the driver's block, by its access codes (spec 00 R11; log 32). -/
def State.regWrite (s : State) (off : Nat) (w : W64) : State :=
  if off = 0 then { s with lqbase := fieldsOf w 56 12 }
  else if 0x10000 ≤ off && off < 0x10000 + 0x40 * 144 then s.coreRegWrite ((off - 0x10000) / 0x40) (off % 0x40) w
  else if 0x20000 ≤ off && off < 0x20400 && off % 0x100 < 20 && off % 4 = 0 then
    { s with dies := s.dies.modify ((off - 0x20000) / 0x100) fun d => { d with bwb := d.bwb.set (off % 0x100 / 4) (w.setWidth 24) } }
  else if 0x30000 ≤ off && off < 0x30020 then s.pecmdWrite (off - 0x30000) w
  else if off = 0x30100 then { s with frbase := fieldsOf w 51 12 ||| fieldsOf w 4 0 }
  else if off = 0x3010C then { s with frhead := w.setWidth 32 }
  else if off = 0x30110 then if w.getLsbD 32 then s.fail (w.setWidth 32) else s.retry (w.setWidth 32)
  else if off = 0x30120 then ({ s with ctxtbl := w } : State).followArenas fun _ => true
  else if off = 0x30140 then s.tlbinv (some w) none
  else if off = 0x30148 then s.tlbinv none (some w)
  else if off = 0x40010 then if w.getLsbD 1 then s.mapAck else s
  else if 0x40200 ≤ off && off < 0x40240 && off % 8 = 0 then s.keydataWrite ((off - 0x40200) / 8) w
  else if off = 0x40240 then s.keycmdWrite w
  else if off = 0x50008 then { s with reelen0 := w }
  else if off = 0x50010 then { s with reelen1 := w }
  else if 0x51000 ≤ off && off < 0x51000 + 16 * 148 && off % 8 = 0 then s.mirrorWrite ((off - 0x51000) / 16) (off % 16 = 8) w
  else if 0x54000 ≤ off && off < 0x54000 + 0x40 * 144 then s.smpRegWrite ((off - 0x54000) / 0x40) (off % 0x40) w
  else s

/-- REGISTER_WRITE; input: offset and value. -/
def execRegisterWrite (s : State) : Host.Outcome State Fault Refusal :=
  match s.input with
  | .word off w => .next (s.regWrite off w)
  | _ => .next s

/-- Droop events of a core in the last 10 µs (spec 18 R320). -/
def State.droopCount (s : State) (c : Core) : Nat := (c.droops.filter fun t => s.nstime.toNat < t + 10000).length

/-- A register of core c's block as it reads. -/
def State.coreRegRead (s : State) (c off : Nat) : W64 :=
  match s.cores[c]? with
  | none => 0
  | some x =>
    if off = 0 then x.bankrole else if off = 8 then x.bankauto.setWidth 64 else if off = 0x10 then x.bankact
    else if off = 0x18 then BitVec.ofNat 64 (min 255 (s.droopCount x) * 2 ^ 16 + x.temp.toNat * 2 ^ 8 + x.hot.toNat)
    else 0

/-- A register of a core's sampler as it reads. -/
def State.smpRegRead (s : State) (c off : Nat) : W64 :=
  match (s.cores[c]?).map Core.smp with
  | none => 0
  | some m =>
    if off = 0 then BitVec.ofNat 64 (m.en.toNat * 2 ^ 31 + m.allctx.toNat * 2 ^ 30 + m.period.toNat)
    else if off = 4 then m.ctx.setWidth 64 else if off = 8 then m.base else if off = 0x10 then m.head.setWidth 64
    else if off = 0x14 then m.tail.setWidth 64 else if off = 0x18 then m.drop.setWidth 64 else 0

/-- A ring's registers as they read: REELLOST, and the two words of REELMIR. -/
def Ring.lostWord (r : Ring) : W64 := r.mir.drop ++ r.lost
def Ring.mirWord (r : Ring) : W64 := BitVec.ofNat 64 (r.mir.pa.toNat + r.mir.en.toNat * 16 + r.mir.size.toNat)
def Ring.indexWord (r : Ring) : W64 := r.mir.head ++ r.mir.tail

/-- A word of PECMD as it reads. -/
def PeCmd.read (c : PeCmd) (off : Nat) : W64 :=
  if off = 0x18 then c.image else if off = 0x14 then c.grid.setWidth 64 else if off = 0x10 then c.team.setWidth 64
  else if off = 0x0E then c.target.setWidth 64 else if off = 8 then c.status.setWidth 64
  else if off = 0 then c.op.setWidth 64 else 0

/-- BRINGUP as it reads (spec 20 R348). -/
def State.bringup (s : State) : W64 :=
  BitVec.ofNat 64 (s.bringFail.toNat * 2 ^ 8 + s.bringStep.toNat * 2 ^ 4 + s.bringState.toNat)

/-- The register at an offset of the driver's block as it reads: write-only fields and reserved bits read 0 (spec 00 R11). -/
def State.regRead (s : State) (off : Nat) : W64 :=
  let ring (n : Nat) (f : Ring → W64) : W64 := ((s.rings[n]?).map f).getD 0
  if off = 0 then s.lqbase
  else if 0x10000 ≤ off && off < 0x10000 + 0x40 * 144 then s.coreRegRead ((off - 0x10000) / 0x40) (off % 0x40)
  else if 0x20000 ≤ off && off < 0x20400 && off % 0x100 < 20 && off % 4 = 0 then
    ((s.dies[(off - 0x20000) / 0x100]?).bind fun d => (d.bwb[off % 0x100 / 4]?).map (·.setWidth 64)).getD 0
  else if 0x30000 ≤ off && off < 0x30020 then s.pecmd.read (off - 0x30000)
  else if off = 0x30100 then s.frbase
  else if off = 0x30108 then s.frtail.setWidth 64
  else if off = 0x3010C then s.frhead.setWidth 64
  else if off = 0x30120 then s.ctxtbl
  else if off = 0x30140 then s.tlbVA
  else if off = 0x30148 then BitVec.ofNat 64 (s.tlbCtx.toNat * 2 ^ 32 + s.tlbPages.toNat * 2 ^ 8 + s.tlbDone.toNat)
  else if 0x30180 ≤ off && off < 0x301A0 && off % 8 = 0 then
    ((s.dies[(off - 0x30180) / 8]?).map fun d => d.sigdrop.setWidth 64).getD 0
  else if off = 0x40000 then s.bringup
  else if off = 0x40008 then s.regions.setWidth 64
  else if off = 0x40010 then BitVec.ofNat 64 (s.mapRegion.toNat * 16 + s.mapPend.toNat)
  else if off = 0x40018 then s.memwin.setWidth 64
  else if off = 0x40020 then s.tokcfg.setWidth 64
  else if off = 0x40028 then s.mapthr.setWidth 64
  else if off = 0x40030 then s.ptpcfg.setWidth 64
  else if 0x40040 ≤ off && off < 0x400A0 && off % 8 = 0 then
    let m := (off - 0x40040) / 8
    (s.rasUe[m]?).getD 0 ++ (s.rasCe[m]?).getD 0
  else if 0x40100 ≤ off && off < 0x40190 && off % 8 = 0 then
    ((s.links[(off - 0x40100) / 8]?).map fun l => BitVec.ofNat 64 (l.lanes.toNat * 16 + l.state.toNat)).getD 0
  else if off = 0x40240 then
    BitVec.ofNat 64 (s.keyStatus.toNat * 2 ^ 24 + s.keySlot.val * 2 ^ 8 + s.keyOp.toNat)
  else if off = 0x50000 then BitVec.ofNat 64 (s.assembling.toNat * 2 + (s.rings.any Ring.frozen).toNat)
  else if off = 0x50008 then s.reelen0
  else if off = 0x50010 then s.reelen1
  else if off = 0x50018 then s.tf
  else if off = 0x50020 then s.slateLost.setWidth 64
  else if 0x50100 ≤ off && off < 0x50100 + 8 * 148 && off % 8 = 0 then ring ((off - 0x50100) / 8) Ring.lostWord
  else if 0x51000 ≤ off && off < 0x51000 + 16 * 148 && off % 8 = 0 then
    ring ((off - 0x51000) / 16) (if off % 16 = 8 then Ring.indexWord else Ring.mirWord)
  else if off = 0x52000 then
    BitVec.ofNat 64 (s.timeOffset.toNat * 2 ^ 32 + s.timePort.toNat * 16 + s.timeState.toNat)
  else if 0x54000 ≤ off && off < 0x54000 + 0x40 * 144 then s.smpRegRead ((off - 0x54000) / 0x40) (off % 0x40)
  else 0

end Sys2Proof.Machine
end

