-- ==== Sys2Proof/Machine/Reel.lean ====
section
/-! DEFINITION. Epochs, the freeze, memory copies of rings, the stall sampler and the device clock (spec 18 R326, 19 R343, 21 R363 to
R371, R378 to R385). -/

namespace Sys2Proof.Machine

/-- Numbers of the Reel rings (spec 21 R361). -/
def ringNumbers : List Nat := List.range 148

/-- A record in every ring (spec 21 R363). -/
def State.reelAll (s : State) (code payload : Nat) : State := ringNumbers.foldl (fun s r => s.reel r code none payload) s

/-- EPOCH records in every ring, which then follow NSTIME[39] (spec 21 R363, R366). -/
def State.epochs (s : State) : State := { s.reelAll 0x38 (s.nstime.toNat / 2 ^ 40) with epochBit := s.nstime.getLsbD 39 }

/-- EPOCH: NSTIME[39] has changed since the last EPOCH records (spec 21 R363). -/
def execEpoch (s : State) : Host.Outcome State Fault Refusal :=
  .next (if s.epochBit = s.nstime.getLsbD 39 then s else s.epochs)

/-- FREEZE (spec 21 R369): the broadcast arrives at a ring that still records; input: the ring. -/
def execFreeze (s : State) : Host.Outcome State Fault Refusal :=
  match s.input with
  | .index n =>
    if !s.assembling || ((s.rings[n]?).map Ring.frozen).getD true then .next s
    else
      let s1 := s.reel n 0x31 none (s.origin * 2 ^ 57)
      .next { s1 with rings := s1.rings.modify n fun r => { r with frozen := true } }
  | _ => .next s

/-- REEL_MIRROR_WRITE (spec 21 R368): the oldest staged record of a ring is copied to its memory ring, or dropped where that is
full; it waits while its traffic class is held (18 R326); input: the ring. -/
def execReelMirrorWrite (s : State) : Host.Outcome State Fault Refusal :=
  match s.input with
  | .index n =>
    match (s.rings[n]?).map Ring.mir with
    | none => .next s
    | some m =>
      match m.staging with
      | [] => .next s
      | x :: xs =>
        let put (s : State) (m : Mirror) : State := { s with rings := s.rings.modify n fun r => { r with mir := m } }
        if ringFull m.head m.tail m.size.toNat then .next (put s { m with staging := xs, drop := sat32 m.drop 1 })
        else
          if s.held 4 [(m.slot, 16)] then .next s
          else .next (put ((s.writePhys m.slot (leBytes 16 x.toNat)).charge 4 [(m.slot, 16)]) { m with staging := xs, tail := m.tail + 1 })
  | _ => .next s

/-- SAMPLE_WRITE (spec 21 R383): the oldest staged sample of a core is written and SMPTAIL advances, or it is dropped where the ring
is full; it waits while its traffic class is held (18 R326); input: the core. -/
def execSampleWrite (s : State) : Host.Outcome State Fault Refusal :=
  match s.input with
  | .index core =>
    match (s.cores[core]?).map Core.smp with
    | none => .next s
    | some m =>
      match m.staging with
      | [] => .next s
      | x :: xs =>
        let size := (m.base.extractLsb' 0 4).toNat
        if ringFull m.head m.tail size then .next (s.modSmp core fun _ => { m with staging := xs, drop := sat32 m.drop 1 })
        else
          if s.held 4 [(m.slot, 32)] then .next s
          else .next (((s.writePhys m.slot (leBytes 32 x.toNat)).charge 4 [(m.slot, 32)]).modSmp core fun _ => { m with staging := xs, tail := m.tail + 1 })
  | _ => .next s

/-- Whether a group spends the present cycle in a way that an event counts: resident, stalled, or stalled for a token (spec 19
R343). -/
def State.spends (s : State) (gi : Nat) (g : Group) (event : Nat) : Bool :=
  let r := s.cycleReason gi g
  event = 1 || (event = 3 && r != 0) || (event = 12 && r = 9)

/-- CYCLE_COUNT_OVERFLOW (spec 19 R343, R344): a counter that counts cycles is at its last value, and the present cycle, in which its
quadrant has made its attempt to issue, is one more of them: it is counted now, and not at the cycle's end; input: group and counter. -/
def execCycleCountOverflow (s : State) : Host.Outcome State Fault Refusal :=
  match s.input with
  | .index2 gi k =>
    match s.groups[gi]? with
    | none => .next s
    | some g =>
      let event := ((g.pmsel[k]?).map BitVec.toNat).getD 0
      if g.live && (s.pick g.core g.quad).isNone && (g.counting event).contains k && !g.early.contains k
          && (g.countBefore (s.written gi g) k).toNat + g.pending k = 0xFFFFFFFFFFFF && s.spends gi g event then
        .next ((s.modGroup gi fun h => { h.count [k] event 1 with early := k :: h.early }).commitCounter gi (s.written gi g) k)
      else .next s
  | _ => .next s

/-- BUDGET_WINDOW (spec 18 R326): a new microsecond of NSTIME opens a new window on every die, in which no class has used any of its
budget. -/
def execBudgetWindow (s : State) : Host.Outcome State Fault Refusal :=
  let w := s.nstime.toNat / 1000
  .next { s with dies := s.dies.map fun d => if d.bwWindow < w then { d with bwWindow := w, bwUsed := List.replicate 5 0 } else d }

/-- PTP_EVENT_MESSAGE (spec 21 R378, R379, R384 TIMESTAT): what an exchange measured. Unless the device is master or runs free, NSTIME
is corrected by the negated offset: slewed, or stepped where it is forward by more than 1 µs. -/
def State.ptp (s : State) (r : PtpResult) : State :=
  let s1 := { s with timeOffset := BitVec.ofInt 32 r.offset, timePort := r.port, timeState := r.state }
  let c := -r.offset
  if r.state = 0 || r.state = 3 then s1
  else if c ≤ 1000 then { s1 with slew := c }
  else { s1.reelAll 0x39 (c.toNat % 2 ^ 32) with nstime := s.nstime + BitVec.ofInt 64 c, slew := 0 }

/-- PTP_EVENT_MESSAGE; input: the exchange. -/
def execPtpEventMessage (s : State) : Host.Outcome State Fault Refusal :=
  match s.input with
  | .ptp r => .next (s.ptp r)
  | _ => .next s

end Sys2Proof.Machine
end

