-- ==== Sys2Proof/Machine/Rsa.lean ====
section
/-! DEFINITION. RSA-3072 signatures over SHA-256 digests, RSASSA-PKCS1-v1_5 of PKCS #1 (spec 00 R5, 21 R375). DEDUCED: the
signatures of attestations, firmware and images are of that scheme too (log 96). The keys are open (log 21). -/

namespace Sys2Proof.Machine

/-- A power modulo m, by the low n bits of the exponent. -/
def powMod (m b : Nat) : Nat → Nat → Nat
  | 0, _ => 1 % m
  | n + 1, e =>
    let r := powMod m b n (e / 2)
    let q := r * r % m
    if e % 2 = 1 then q * b % m else q

/-- The number that bytes are, most significant first. -/
def numOfBytes (bs : List Byte) : Nat := bs.foldl (fun n b => 256 * n + b.toNat) 0

/-- A number as n bytes, most significant first. -/
def bytesOfNum (n x : Nat) : List Byte := (List.range n).map fun i => BitVec.ofNat 8 (x / 256 ^ (n - 1 - i))

/-- Bytes of a signature and of its key's modulus. -/
def rsaBytes : Nat := 384

/-- What stands before a SHA-256 digest in its DigestInfo. -/
def digestInfo : List Byte :=
  [0x30, 0x31, 0x30, 0x0d, 0x06, 0x09, 0x60, 0x86, 0x48, 0x01, 0x65, 0x03, 0x04, 0x02, 0x01, 0x05, 0x00, 0x04, 0x20]

/-- A digest as it is encoded to be signed. -/
def rsaEncoded (digest : List Byte) : List Byte :=
  [0x00, 0x01] ++ List.replicate (rsaBytes - 3 - digestInfo.length - 32) 0xFF ++ [0x00] ++ digestInfo ++ digest

/-- The signature of a digest under a private key: modulus and exponent. -/
def rsaSignBy (n d : Nat) (digest : List Byte) : List Byte :=
  bytesOfNum rsaBytes (powMod n (numOfBytes (rsaEncoded digest)) (8 * rsaBytes) d)

/-- Whether a signature of a digest verifies under a public key. -/
def rsaVerifyBy (n e : Nat) (digest sig : List Byte) : Bool :=
  sig.length = rsaBytes && decide (numOfBytes sig < n)
    && bytesOfNum rsaBytes (powMod n (numOfBytes sig) (8 * rsaBytes) e) = rsaEncoded digest

/-- The signature of a digest with the device identity key (spec 20 R355, 21 R375). -/
def rsaSign (digest : List Byte) : List Byte := rsaSignBy Config.identityModulus Config.identityExponent digest

/-- Whether a signature of a digest verifies under the root key (spec 20 R358, R359). -/
def rsaVerify (digest sig : List Byte) : Bool := rsaVerifyBy Config.rootModulus Config.rootExponent digest sig

end Sys2Proof.Machine
end

