-- ==== Sys2Proof/Machine/Bringup.lean ====
section
/-! DEFINITION. The configuration image, bring-up and resets (spec 20 R353, R354, R358 to R360, 21 R361, R372, R378; logs 8, 33). -/

namespace Sys2Proof.Machine

/-- Number of records of a configuration image (spec 20 R359). -/
def imageCount (bs : List Byte) : Nat := fieldAt bs 16 4

/-- Bytes of an image, with its signature. -/
def imageLen (bs : List Byte) : Nat := 64 + 16 * imageCount bs + 384

/-- Header and records of an image. -/
def imageBody (bs : List Byte) : List Byte := bs.take (64 + 16 * imageCount bs)

/-- The records of an image: offset and value. -/
def imageRecords (bs : List Byte) : List (Nat × W64) :=
  (List.range (imageCount bs)).map fun i => (fieldAt bs (64 + 16 * i) 8, bitsAt 64 bs (72 + 16 * i) 8)

/-- Whether an offset names a register whose reset is "From image", and the value lies in its ranges (spec 20 R348, R359, R360, 18
R311, R322, R326, 21 R384). -/
def imageAllows (off : Nat) (w : W64) : Bool :=
  let v := w.toNat
  if off = 0 then v % 2 ^ 12 = 0 && v < 2 ^ 57
  else if 0x10000 ≤ off && off < 0x10000 + 0x40 * 144 && off % 0x40 = 0 then (List.range 32).all fun b => roleOf w b != 3
  else if 0x10000 ≤ off && off < 0x10000 + 0x40 * 144 && off % 0x40 = 8 then v < 2 ^ 32
  else if 0x20000 ≤ off && off < 0x20400 && off % 0x100 < 20 && off % 4 = 0 then v < 2 ^ 24
  else if off = 0x40018 then v ≤ 576
  else if off = 0x40020 then v < 2 ^ 16 && (List.range 4).all fun d => 1 ≤ v / 16 ^ d % 16 && v / 16 ^ d % 16 ≤ 9
  else if off = 0x40028 then v < 2 ^ 32
  else if off = 0x40030 then v < 2 ^ 24
  else off = 0x50008 || off = 0x50010

/-- Whether an image is well formed, signed by the root key, and keeps to R359. -/
def imageValid (bs : List Byte) : Bool :=
  bs.length = imageLen bs && fieldAt bs 0 4 = 0x47494643 && fieldAt bs 4 4 = 1 && zeroAt bs 20 44
  && rsaVerify (sha256 (imageBody bs)) (bs.drop (64 + 16 * imageCount bs))
  && (imageRecords bs).all fun r => imageAllows r.1 r.2

/-- One record of the image applied. -/
def State.applyRecord (s : State) (r : Nat × W64) : State :=
  let w := r.2
  if r.1 = 0x40018 then { s with memwin := w.setWidth 10 }
  else if r.1 = 0x40020 then { s with tokcfg := w.setWidth 16 }
  else if r.1 = 0x40028 then { s with mapthr := w.setWidth 32 }
  else if r.1 = 0x40030 then { s with ptpcfg := w.setWidth 24 }
  else s.regWrite r.1 w

/-- The records of the applied image put into the registers; every bank then serves its role (spec 20 R360, 18 R322). -/
def State.applyImage (s : State) : State :=
  let s1 := s.image.foldl State.applyRecord s
  { s1 with cores := s1.cores.map fun (c : Core) => c.serve c.bankrole }

/-- Free bytes appended to the bring-up log, of which 64 entries stay (spec 20 R355; log 33). -/
def State.logStep (s : State) : State :=
  let f := s.freeBytes 1
  let l := f.2.bringLog ++ f.1
  { f.2 with bringLog := l.drop (l.length - 64) }

/-- A bring-up step completed. -/
def State.stepDone (s : State) (n : BitVec 4) : State := { s.logStep with bringStep := n }

/-- Bring-up failed with a code (spec 20 R358). -/
def State.bringFailed (s : State) (code : Byte) : State := { s.logStep with bringState := 2, bringFail := code }

/-- The link of LINKSTAT entry p between two dies (spec 20 R348). -/
def dieLink (d e : Nat) : Nat :=
  match min d e, max d e with
  | 0, 1 => 12 | 0, 2 => 13 | 0, 3 => 14 | 1, 2 => 15 | 1, 3 => 16 | _, _ => 17

/-- Whether a link is up, whole or degraded. -/
def State.linkUp (s : State) (p : Nat) : Bool := ((s.links[p]?).map fun l => decide (2 ≤ l.state.toNat)).getD false

/-- The way of a request from die d to die e: none to pass through, or the die between, or unreachable (spec 20 R353). -/
def State.route (s : State) (d e : Nat) : Option (Option Nat) :=
  if d = e || s.linkUp (dieLink d e) then some none
  else ((List.range 4).find? fun f => f != d && f != e && s.linkUp (dieLink d f) && s.linkUp (dieLink f e)).map some

/-- Every die can be reached from every other. -/
def State.allReached (s : State) : Bool := (List.range 4).all fun d => (List.range 4).all fun e => (s.route d e).isSome

/-- A link as it trains at a number of lanes: 8 whole, 4 degraded, else down (spec 20 R354). -/
def linkOf (lanes : Nat) : Link :=
  if lanes = 8 then { lanes := 8, state := 2 } else if lanes = 4 then { lanes := 4, state := 3 } else { lanes := 0, state := 0 }

/-- A sensor's reading of a core taken over (spec 18 R319, R320). -/
def Core.reading (c : Core) (t : Byte) (now : Nat) : Core :=
  { c with temp := t, coolSince := if 88 < t.toNat then none else c.coolSince.or (some now) }

/-- A core that is to be hot becomes so, and is recorded (spec 18 R319, 21 R363 HOT). -/
def State.heat (s : State) (core : Nat) : State :=
  match s.cores[core]? with
  | none => s
  | some c =>
    if !c.hot && (95 ≤ c.temp.toNat || 4 ≤ s.droopCount c) then
      (s.modCore core fun c => { c with hot := true }).reel core 0x22 none (2 ^ 64 + c.temp.toNat)
    else s

/-- The first readings of the sensors, which make cores hot as any others do (spec 18 R319). -/
def State.firstReadings (s : State) (temps : List Byte) : State :=
  let now := s.nstime.toNat
  (List.range 144).foldl State.heat
    { s with cores := (List.range 144).zipWith (fun i (c : Core) => c.reading ((temps[i]?).getD 0) now) s.cores }

/-- Steps 3 to 5 of bring-up (spec 20 R358); every core leaves reset at the end of it (11 R287). After a failure in step 3 the CXL ports
train for CXL.io alone; one in step 4 is reported on the management sideband. -/
def State.train (s : State) (f : BringupFound) : State :=
  let s3 := { s.firstReadings f.temps with regions := f.regions }
  if f.regions = 0 then { s3.bringFailed 0x03 with cxlIo := f.cxl }
  else
    let s4 := { s3.stepDone 3 with cxl := f.cxl, links := (List.range 18).map fun p => linkOf ((f.lanes[p]?).getD 0) }
    let told (s : State) : State := { s with sideband := s.sideband ++ [s.bringFail] }
    if f.cxl = 0 then told (s4.bringFailed 0x04)
    else if !s4.allReached then told (s4.bringFailed 0x05)
    else
      let s5 := (s4.stepDone 4).stepDone 5
      { s5 with bringState := 1, cores := s5.cores.map fun (c : Core) => { c with start := s5.cycle } }

/-- The valid copy of highest sequence in flash, and whether it is copy 1 (spec 20 R358 step 2). -/
def State.bestCopy (s : State) : Option (Bool × List Byte) :=
  let a := s.flash0.bytes
  let b := s.flash1.bytes
  if imageValid b && (!imageValid a || fieldAt a 8 8 < fieldAt b 8 8) then some (true, b)
  else if imageValid a then some (false, a) else none

/-- What every reset leaves alone: memory, flash, and the model's own fields (log 33). -/
def State.kept (s : State) : State :=
  { State.reset with agenda := s.agenda, input := s.input, freeCount := s.freeCount, cycle := s.cycle, mem := s.mem,
                     hostMem := s.hostMem, poison := s.poison, keyTags := s.keyTags, flash0 := s.flash0, flash1 := s.flash1,
                     slates := s.slates, slateSeq := s.slateSeq, slateLost := s.slateLost }

/-- Whether the firmware that a cold reset finds is signed with the root key (spec 20 R358 step 1). -/
def BringupFound.genuine (f : BringupFound) : Bool := rsaVerify (sha256 f.firmware) f.firmwareSig

/-- A cold reset, which the rings survive only through an assembly (spec 20 R358, 21 R361, R378): every ring starts with EPOCH. -/
def State.coldReset (s : State) (f : BringupFound) : State :=
  let s0 := s.kept.epochs
  if !f.genuine then { s0.bringFailed 0x01 with cxlIo := f.cxl }
  else
    let s1 := { s0.stepDone 1 with firmware := f.firmware }
    match s1.bestCopy with
    | none => { s1.bringFailed 0x02 with cxlIo := f.cxl }
    | some (one, bs) =>
      let s2 := { s1 with image := imageRecords bs, imageSeq := bitsAt 64 bs 8 8, flashActive := one }
      (s2.applyImage.stepDone 2).train f

/-- COLD_RESET (spec 20 R358, 21 R372): one asked for during an assembly takes effect when that ends; input: what training finds. -/
def execColdReset (s : State) : Host.Outcome State Fault Refusal :=
  match s.input with
  | .found f => .next (if s.assembling then { s with coldPending := some f } else s.coldReset f)
  | _ => .next s

/-- A warm reset keeps the applied image, the rings, an assembly in progress and NSTIME (spec 20 R358, 21 R361, R372, R378). -/
def State.warmReset (s : State) (f : BringupFound) : State :=
  let s0 := { s.kept with firmware := s.firmware, image := s.image, imageSeq := s.imageSeq, flashActive := s.flashActive,
                          rings := s.rings.map fun (r : Ring) => { Ring.reset with recs := r.recs, frozen := r.frozen, lost := r.lost },
                          tf := s.tf, origin := s.origin, assembling := s.assembling, coldPending := s.coldPending,
                          nstime := s.nstime, nsRem := s.nsRem, epochBit := s.epochBit, slew := s.slew, slewNs := s.slewNs }
  ({ s0.applyImage with bringStep := 2 } : State).train f

/-- WARM_RESET; input: what training finds. -/
def execWarmReset (s : State) : Host.Outcome State Fault Refusal :=
  match s.input with
  | .found f => .next (s.warmReset f)
  | _ => .next s

/-- POWER_LOSS (spec 21 R372): everything but flash and the host's memory is lost, a Slate in assembly with it; the device then waits
for a cold reset. -/
def execPowerLoss (s : State) : Host.Outcome State Fault Refusal :=
  .next { s.kept with mem := [], poison := [], keyTags := [] }

end Sys2Proof.Machine
end

