-- ==== Sys2Proof/Machine/Ras.lean ====
section
/-! DEFINITION. Memory errors, fatal hardware faults and core resets, sensors, links, and the host's accesses (spec 18 R319, R320, 19
R341, R342, 20 R346 to R354; logs 34, 35). -/

namespace Sys2Proof.Machine

/-- The memory stack of a physical address, and the region, whose DRAM die serves it (spec 20 R349). -/
def stackOf (pa : Nat) : Nat := pa / 4096 % 12
def regionOf (pa : Nat) : Nat := pa / regionBytes

/-- Whether a physical address lies in a region that is present. -/
def State.present (s : State) (pa : Nat) : Bool := regionOf pa < 12 && s.regions.getLsbD (regionOf pa)

/-- 24 hours in nanoseconds. -/
def dayNs : Nat := 86400000000000

/-- A corrected error at a physical address counted; its DRAM die's region is proposed for map-out once more than THR errors of the
die fall within 24 hours (spec 20 R351, R352). -/
def State.corrected (s : State) (pa : Nat) : State :=
  if !s.present pa then s
  else
    let m := stackOf pa
    let k := regionOf pa
    let now := s.nstime.toNat
    let times := (s.ceTimes.filter fun t => now < t.2.2 + dayNs) ++ [(m, k, now)]
    let s1 := { s with rasCe := s.rasCe.modify m (sat32 · 1), ceTimes := times }
    let n := (times.filter fun t => t.1 = m && t.2.1 = k).length
    if s.mapthr != 0 && s.mapthr.toNat < n then s1.propose (BitVec.ofNat 4 k) else s1

/-- CORRECTED_ERROR; input: the physical address. -/
def execCorrectedError (s : State) : Host.Outcome State Fault Refusal :=
  match s.input with
  | .index pa => .next (s.corrected pa)
  | _ => .next s

/-- UNCORRECTABLE_MEMORY_ERROR (spec 20 R351, 21 R363 MEMUE): UE is raised, the line poisoned, the error recorded; input: the physical
address. -/
def execUncorrectableMemoryError (s : State) : Host.Outcome State Fault Refusal :=
  match s.input with
  | .index pa =>
    if !s.present pa then .next s
    else
      let line := pa / 128
      let s1 := { s with rasUe := s.rasUe.modify (stackOf pa) (sat32 · 1),
                         poison := if s.poison.contains line then s.poison else s.poison ++ [line] }
      .next (s1.reel (144 + homeDie pa) 0x15 none (noSlot + stackOf pa) (some (0, 0, BitVec.ofNat 64 pa)))
  | _ => .next s

/-- PATROL_SCRUB (spec 20 R351): a line is read; what the read finds are events of their own. -/
def execPatrolScrub (s : State) : Host.Outcome State Fault Refusal := .next s

/-- CONTEXT_DATA_ERROR (spec 19 R342, 21 R363 cause 0x81); input: the context and the core that detects the error. -/
def execContextDataError (s : State) : Host.Outcome State Fault Refusal :=
  match s.input with
  | .ctx id core => .next (if core < 144 then s.contextFatal id core noSlot 0x81 else s)
  | _ => .next s

/-- Contexts of the teams that have a half on one of some cores. -/
def State.ctxsOn (s : State) (cores : List Nat) : List W32 :=
  ((s.teams.filter fun t => t.sites.any fun x => cores.contains x.1).map Team.ctx).eraseDups

/-- Cores fenced: their teams are lost, and each of their contexts is fatal (spec 19 R342). -/
def State.fence (s : State) (cores : List Nat) : State :=
  let s1 := (s.ctxsOn cores).foldl State.contain s
  { s1 with cores := (List.range 144).zipWith (fun i (c : Core) => if cores.contains i then { c with fenced := true } else c) s1.cores }

/-- CORE_HARDWARE_FAULT (spec 19 R342, 21 R363 cause 0x82); input: the core. -/
def execCoreHardwareFault (s : State) : Host.Outcome State Fault Refusal :=
  match s.input with
  | .index c =>
    .next (if ((s.cores[c]?).map fun x => !x.fenced).getD false then (s.fatal c none noSlot 1 0x82).fence [c] else s)
  | _ => .next s

/-- The cores of a die (spec 00 R10). -/
def coresOf (d : Nat) : List Nat := (List.range 36).map fun i => 36 * d + i

/-- DIE_CONTROL_FAULT (spec 19 R342, 21 R363 cause 0x83); input: the die. -/
def execDieControlFault (s : State) : Host.Outcome State Fault Refusal :=
  match s.input with
  | .index d =>
    if ((s.dies[d]?).map Die.down).getD true then .next s
    else
      let s1 := (s.fatal (144 + d) none noSlot 2 0x83).fence (coresOf d)
      .next { s1 with dies := s1.dies.modify d fun x => { x with down := true } }
  | _ => .next s

/-- Whether an operation is a copy engine's, which the partner core's engines may execute (spec 10 R249). -/
def Op.isCopy (o : Op) : Bool :=
  match o.body with
  | .copy _ _ _ _ _ | .regIn _ _ _ _ _ | .regOut _ _ _ | .gather _ _ _ _ _ _ | .walk _ _ => true
  | _ => false

/-- Copies of a group that a reset core's engines had stolen end as faulted operations, what they wrote unspecified; which ones they had is
not given (spec 10 R249, 19 R341; log 35). -/
def State.dropStolen (s : State) (target gi : Nat) : State :=
  match s.groups[gi]? with
  | none => s
  | some g =>
    (g.ops.filter fun o => o.isCopy && (o.phase = .queued || o.phase = .started)).foldl (fun s o =>
      let d := s.draw
      if Config.freeChoice d.1 2 = 0 then d.2
      else ((d.2.abandon gi g o).finishOp gi o.id (o.status 0x12) (some { kind := 0x07, addr := BitVec.ofNat 64 (leNat ((List.range 8).map (Config.freeByte d.1))) })).sigDrop target 3) s

/-- Paired MXPAIRs of a core that have not started end with PEER_RESET (spec 11 R265, 19 R341). -/
def State.dropPaired (s : State) (core target : Nat) (team : Nat × Group → Bool) : State :=
  let q := ((s.cores[core]?).map Core.mxq).getD []
  q.foldl (fun s x =>
    match s.opAt x.g x.op with
    | some (g, o) =>
      if o.isPair && o.phase = .queued && team (x.g, g) then
        ((s.modCore core fun c => { c with mxq := c.mxq.erase x }).finishOp x.g x.op (o.status 0x23) none).sigDrop target 2
      else s
    | none => s) s

/-- A pair team loses the half on a core: its groups count as exited, the other half keeps running (spec 19 R341, R342, 01 R37). What the
lost groups had under way ends as for a fatal fault. -/
def State.loseHalf (s : State) (ti : Nat) (t : Team) (odd : Bool) : State :=
  let target := t.core + odd.toNat
  let mine (g : Group) : Bool := g.live && g.grid = t.grid && g.team = t.id && g.half = odd
  let gone := (s.indexed.filter fun x => mine x.2).map Prod.fst
  let left := (s.indexed.filter fun x => x.2.live && x.2.grid = t.grid && x.2.team = t.id && x.2.half != odd).map Prod.fst
  let here (g : Nat) : Bool := !gone.contains g
  let s := s.abandonAll mine
  let none_ : Half := { Half.none with stage := (t.half odd).stage }
  let t1 := t.setHalf odd none_
  let t2 := { t1 with lost := some odd, pushWait := t.pushWait.filter (here ·.g), popWait := t.popWait.filter (here ·.g),
                      rv := t.rv.filter (here ·.g), claims := t.claims.filter (here ·.g),
                      pairEven := t.pairEven.filter (here ·.g), pairOdd := t.pairOdd.filter (here ·.g) }
  let s1 := { s with teams := s.teams.set ti t2, groups := s.groups.map fun g => if mine g then { g with live := false, ops := [] } else g,
                     cue := { s.cue with pops := s.cue.pops.filter (here ·.g) }, frRecs := s.frRecs.filter (here ·.g),
                     cores := s.cores.map fun (c : Core) => { c with mxq := c.mxq.filter (here ·.g), ntt := c.ntt.filter (here ·.g) } }
  let s2 := (s1.peerReset ti).dropPaired (t.core + (!odd).toNat) target fun x => left.contains x.1
  let s3 := left.foldl (fun s g => s.dropStolen target g) s2
  (s3.advanceBarriers t.grid t.id).teamExit t.grid t.id

/-- The teams of a core that is reset: a pair team with its other half alive goes on with that; a team of which nothing is left is
lost, and its context is fatal (spec 19 R341, R342; log 34). Those of a context that is contained already stay as they are until their grid
completes. -/
def State.loseTeams (s : State) (core : Nat) : State :=
  let on := s.teams.filter fun t => t.sites.any fun x => x.1 = core
  on.foldl (fun s t0 =>
    match s.teamIdx t0.grid t0.id with
    | none => s
    | some ti => match s.teams[ti]? with
      | none => s
      | some t =>
        let odd := t.core != core
        if (s.grid? t.grid).any Grid.fatal then s
        else if t.pair && (t.lost.isNone || t.lost = some odd) then (if t.lost.isNone then s.loseHalf ti t odd else s)
        else s.contain t.ctx) s

/-- A core reset by the driver returns to service, and its count of cycles starts again (spec 19 R342, 11 R287). -/
def State.resetCore (s : State) (core : Nat) : State :=
  (s.loseTeams core).modCore core fun c =>
    { c with fenced := false, start := s.cycle, mxq := [], issued := List.replicate 4 none, bankact := c.bankrole, tlb1 := List.replicate 4 [], tlb2 := [], l1 := [] }

/-- CORE_RESET (spec 19 R342): the driver resets a core, or with 144 + d a die and its cores; input: the number. -/
def execCoreReset (s : State) : Host.Outcome State Fault Refusal :=
  match s.input with
  | .index n =>
    if n < 144 then .next (s.resetCore n)
    else if n < 148 then
      let s1 := (coresOf (n - 144)).foldl State.resetCore s
      .next { s1 with dies := s1.dies.modify (n - 144) fun d => { d with down := false } }
    else .next s
  | _ => .next s

/-- CORE_HOT; input: the core. -/
def execCoreHot (s : State) : Host.Outcome State Fault Refusal :=
  match s.input with
  | .index core => .next (s.heat core)
  | _ => .next s

/-- Whether a hot core has spent 200 µs at or below 88 °C without a droop event (spec 18 R319). -/
def Core.cooled (c : Core) (now : Nat) : Bool := c.hot && c.coolSince.any fun t => t + 200000 ≤ now

/-- CORE_HOT_CLEAR; input: the core. -/
def execCoreHotClear (s : State) : Host.Outcome State Fault Refusal :=
  match s.input with
  | .index core =>
    match s.cores[core]? with
    | none => .next s
    | some c =>
      .next (if c.cooled s.nstime.toNat then
        (s.modCore core fun c => { c with hot := false }).reel core 0x22 none c.temp.toNat else s)
  | _ => .next s

/-- DROOP_EVENT (spec 18 R319, R320); input: the core. -/
def execDroopEvent (s : State) : Host.Outcome State Fault Refusal :=
  match s.input with
  | .index core =>
    let now := s.nstime.toNat
    .next ((s.modCore core fun c =>
      { c with droops := (c.droops.filter fun t => now < t + 10000) ++ [now],
               coolSince := if c.temp.toNat ≤ 88 then some now else none }).heat core)
  | _ => .next s

/-- TEMPERATURE_SENSOR_READING (spec 18 R319, R320); input: core and reading. -/
def execTemperatureSensorReading (s : State) : Host.Outcome State Fault Refusal :=
  match s.input with
  | .word core w =>
    .next ((s.modCore core fun c => c.reading (w.setWidth 8) s.nstime.toNat).heat core)
  | _ => .next s

/-- The link that a state and a number of working lanes give: up with 8 lanes, degraded with 4, else down; one that trains has none in
use (spec 20 R348, R354). -/
def linkFor (state : BitVec 2) (lanes : BitVec 4) : Link :=
  if state = 1 then { lanes := 0, state := 1 } else linkOf (if state = 0 then 0 else lanes.toNat)

/-- LINK_STATE_CHANGE (spec 20 R345, R348, R353, R354): the link of LINKSTAT entry n, or with 18 and 19 a CXL port, takes a state and a
number of lanes. -/
def execLinkStateChange (s : State) : Host.Outcome State Fault Refusal :=
  match s.input with
  | .link n st lanes =>
    .next (if n < 18 then { s with links := s.links.set n (linkFor st lanes) }
      else if n < 20 then
        let bit := 1#2 <<< (n - 18)
        { s with cxl := if 2 ≤ st.toNat then s.cxl ||| bit else s.cxl &&& ~~~bit }
      else s)
  | _ => .next s

/-- The port that a request for a page of host memory takes: PA[12] mod 2 while both have trained, else the one that has (spec 20
R346). -/
def State.cxlPort (s : State) (pa : Nat) : Option Nat :=
  if s.cxl = 3 then some (pa / 4096 % 2) else if s.cxl = 1 then some 0 else if s.cxl = 2 then some 1 else none

/-- Stored bytes of device memory, under no key: a poisoned line's are not given (spec 20 R347; log 35). -/
def State.storedBytes (s : State) (pa n : Nat) : List Byte × State :=
  (lineChunks pa n).foldl (fun (acc : List Byte × State) c =>
    if acc.2.poison.contains (c.1 / 128) then
      let f := acc.2.freeBytes c.2
      (acc.1 ++ f.1, f.2)
    else (acc.1 ++ acc.2.readDev c.1 c.2 none, acc.2)) ([], s)

/-- Whether the CXL.mem window maps n bytes, and memory answers there (spec 20 R347, R352). -/
def State.inWindow (s : State) (pa n : Nat) : Bool :=
  pa + n ≤ 2 ^ 30 * s.memwin.toNat && (lineChunks pa n).all fun c => (s.physWhy c.1 false).isNone

/-- HOST_MEMORY_ACCESS (spec 20 R347): an access through the window, without key or page table; input: the access. -/
def execHostMemoryAccess (s : State) : Host.Outcome State Fault Refusal :=
  match s.input with
  | .host (.read pa n) =>
    if s.inWindow pa n then
      let r := s.storedBytes pa n
      .next { r.2 with hostReply := r.1 }
    else .next s
  | .host (.write pa bs) =>
    if s.inWindow pa bs.length then
      .next ((lineChunks pa bs.length).foldl (fun s c => s.writeDev c.1 ((bs.drop (c.1 - pa)).take c.2) none) s)
    else .next s
  | _ => .next s

/-- HOST_AGENT_ACCESS (spec 20 R346): an access of a host agent to host memory; input: the access. -/
def execHostAgentAccess (s : State) : Host.Outcome State Fault Refusal :=
  match s.input with
  | .host (.read a n) => .next { s with hostReply := Memory.read s.hostMem a n }
  | .host (.write a bs) => .next { s with hostMem := Memory.write s.hostMem a bs }
  | _ => .next s

end Sys2Proof.Machine
end

