-- ==== Sys2Proof/Machine/Mailbox.lean ====
section
/-! DEFINITION. Slates and the mailbox (spec 20 R354, R355, 21 R366, R370 to R377; log 36). -/

namespace Sys2Proof.Machine

/-- CODE and CTX of a record (spec 21 R362). -/
def recCode (r : BitVec 128) : Nat := (r.extractLsb' 81 7).toNat
def recCtx (r : BitVec 128) : Nat := (r.extractLsb' 65 16).toNat

/-- Records with their full stamps (spec 21 R366): from the nearest EPOCH before, or else the value that lies within 2^40 up to tf +
200. A continuation has its head's. -/
def stamped (tf : Nat) : Option Nat → Int → List (BitVec 128) → List (BitVec 128 × Int)
  | _, _, [] => []
  | e, last, r :: rs =>
    if recCode r = 0x78 then (r, last) :: stamped tf e last rs
    else
      let time := r.toNat / 2 ^ 88
      let e1 := if recCode r = 0x38 then some (r.toNat % 2 ^ 24) else e
      let hi : Int := (tf : Int) + 200
      let t : Int := match e1 with
        | some n => (n * 2 ^ 40 + time : Nat)
        | none => hi - (hi - (time : Int)) % 2 ^ 40
      (r, t) :: stamped tf e1 t rs

/-- What a ring gives a Slate: no orphaned continuation, nothing stamped after tf + 200 (spec 21 R364, R370). -/
def section_ (tf : Nat) (r : Ring) : List (BitVec 128 × Int) :=
  let l := match r.recs with
    | x :: xs => if recCode x = 0x78 then xs else x :: xs
    | [] => []
  (stamped tf none 0 l).filter fun x => decide (x.2 ≤ (tf : Int) + 200)

/-- The FATAL records of the sections, by stamp and ring: the cause is the first (spec 21 R371). -/
def firstFatal (l : List (Nat × BitVec 128 × Int)) : Option (Nat × BitVec 128 × Int) :=
  l.foldl (fun acc x => match acc with
    | none => some x
    | some y => if x.2.2 < y.2.2 then some x else some y) none

/-- The Slate that the frozen rings give (spec 21 R370 to R374). -/
def State.assemble (s : State) : Slate :=
  let secs := s.rings.map (section_ s.tf.toNat)
  let fatals := ((ringNumbers.zip secs).flatMap fun (n, l) => (l.filter fun x => recCode x.1 = 0x30).map fun x => (n, x))
  let cause := firstFatal fatals
  let pay : Nat := (cause.map fun c => c.2.1.toNat).getD 0
  { acked := false, seq := s.slateSeq, tf := (cause.map fun c => BitVec.ofInt 64 c.2.2).getD s.tf,
    cause := BitVec.ofNat 8 (pay / 2 ^ 45), level := BitVec.ofNat 8 (pay / 2 ^ 53 % 4), origin := (cause.map Prod.fst).getD s.origin,
    causeCtx := (cause.map fun c => BitVec.ofNat 16 (recCtx c.2.1)).getD 0xFFFF, nfatal := fatals.length, imgseq := s.imageSeq,
    rings := secs.zipWith (fun l (r : Ring) => (l.map Prod.fst, r.lost)) s.rings }

/-- Whether a slot is empty. -/
def State.slotEmpty (s : State) (i : Nat) : Bool := ((s.slates[i]?).getD none).isNone

/-- The slot for a new Slate: an empty one, or that of the acknowledged Slate of lowest SEQ (spec 21 R373). -/
def State.slateSlot (s : State) : Option Nat :=
  let old := (List.range 8).filterMap fun i => match (s.slates[i]?).getD none with
    | some x => if x.acked then some (x.seq.toNat, i) else none
    | none => none
  ((List.range 8).find? s.slotEmpty).or
    ((old.foldl (fun acc x => match acc with
      | none => some x
      | some y => if x.1 < y.1 then some x else some y) none).map Prod.snd)

/-- A Slate put into flash, or counted as not stored (spec 21 R373). -/
def State.putSlate (s : State) (x : Slate) : State :=
  match s.slateSlot with
  | some i => { s with slates := s.slates.set i (some x), slateSeq := s.slateSeq + 1 }
  | none => { s with slateLost := sat32 s.slateLost 1 }

/-- Every ring thaws, with an EPOCH record (spec 21 R372, R384). -/
def State.thaw (s : State) : State :=
  ({ s with assembling := false, rings := s.rings.map fun (r : Ring) => { r with frozen := false, lost := 0 } } : State).epochs

/-- SLATE_STORE (spec 21 R372, R373): once every ring is frozen, the Slate is stored and the rings thaw; a cold reset that waited then
takes effect. -/
def execSlateStore (s : State) : Host.Outcome State Fault Refusal :=
  if !s.assembling || !s.rings.all Ring.frozen then .next s
  else
    let s1 := (s.putSlate s.assemble).thaw
    .next (match s1.coldPending with
      | some f => s1.coldReset f
      | none => s1)

/-- A record as a tenant's view shows it, and whether its continuation is reduced: 0 kept, 1 its W64 zero, 2 only CODE kept (spec 21
R376). under: that of the record before. -/
def redact (view : Nat) (under : Nat) (r : BitVec 128) : BitVec 128 × Nat :=
  if recCode r = 0x78 then
    (if under = 2 then BitVec.ofNat 128 (0x78 * 2 ^ 81) else if under = 1 then BitVec.ofNat 128 (r.toNat / 2 ^ 65 * 2 ^ 65) else r, 0)
  else if view = 0xFFFF || recCtx r = view then (r, 0)
  else if recCtx r = 0xFFFF then (r, if recCode r = 0x15 then 1 else 0)
  else (BitVec.ofNat 128 (r.toNat / 2 ^ 81 * 2 ^ 81 + 0xFFFE * 2 ^ 65), 2)

/-- Records as a view shows them. -/
def redactAll (view : Nat) : Nat → List (BitVec 128) → List (BitVec 128)
  | _, [] => []
  | under, r :: rs => let x := redact view under r; x.1 :: redactAll view x.2 rs

/-- Bits as bytes, the first lowest. -/
def packBits (l : List Bool) : List Byte :=
  (List.range ((l.length + 7) / 8)).map fun i =>
    BitVec.ofNat 8 (((List.range 8).map fun j => if (l[8 * i + j]?).getD false then 2 ^ j else 0).sum)

/-- The 384 bytes of a signature by the device identity key (spec 21 R375). -/
def signature (m : List Byte) : List Byte := rsaSign (sha256 m)

/-- Records of a Slate. -/
def Slate.count (x : Slate) : Nat := (x.rings.map fun r => r.1.length).sum

/-- RMAPOFF and TOTAL (spec 21 R374). -/
def Slate.mapOff (x : Slate) : Nat := 256 + 16 * x.rings.length + 16 * x.count
def Slate.total (x : Slate) : Nat := x.mapOff + roundUp ((x.count + 7) / 8) 16 + 384

/-- The bytes of a view before its signature (spec 21 R374, R376). -/
def Slate.body (x : Slate) (view : Nat) : List Byte :=
  let shown := x.rings.map fun r => redactAll view 0 r.1
  let changed := ((x.rings.map Prod.fst).zip shown).flatMap fun (a, b) => List.zipWith (fun p q => p != q) a b
  let ctx := if view != 0xFFFF && x.causeCtx.toNat != 0xFFFF && x.causeCtx.toNat != view then 0xFFFE else x.causeCtx.toNat
  let head := leBytes 4 0x45544C53 ++ leBytes 4 1 ++ leBytes 4 0 ++ leBytes 8 x.seq.toNat ++ leBytes 16 Config.serial.toNat
    ++ leBytes 4 Config.fwVersion.toNat ++ leBytes 8 x.imgseq.toNat ++ leBytes 8 x.tf.toNat ++ leBytes 1 x.cause.toNat
    ++ leBytes 1 x.level.toNat ++ leBytes 2 x.origin ++ leBytes 2 ctx ++ leBytes 2 view ++ leBytes 8 x.total ++ leBytes 8 x.mapOff
    ++ leBytes 4 x.count ++ leBytes 4 x.nfatal
  let secs := ((List.range x.rings.length).zip (x.rings.zip shown)).flatMap fun (n, r, sh) =>
    leBytes 2 n ++ leBytes 2 0 ++ leBytes 4 sh.length ++ leBytes 4 r.2.toNat ++ leBytes 4 0 ++ sh.flatMap fun w => leBytes 16 w.toNat
  padTo 256 head ++ secs ++ (let m := packBits changed; padTo (roundUp m.length 16) m)

/-- A signed view (spec 21 R375). -/
def Slate.view (x : Slate) (view : Nat) : List Byte := x.body view ++ signature (x.body view)

/-- The command of an opcode of the primary mailbox, and of the PLDM commands on the management sideband (spec 20 R355, 21 R377). -/
def mailCommand (opcode : Nat) : Option Instr :=
  match opcode with
  | 0xC000 => some .getIdentity
  | 0xC001 => some .getBringup
  | 0xC002 => some .stageConfig
  | 0xC003 => some .attest
  | 0xC010 => some .slateList
  | 0xC011 => some .slateRead
  | 0xC012 => some .slateAck
  | 0xC020 => some .portSend
  | 0xC021 => some .portRecv
  | _ => none

/-- The mailbox answers. -/
def State.reply (s : State) (c : MailCode) (bs : List Byte) : State := { s with mailbox := bs, mailCode := c }

/-- SLATE_LIST (spec 21 R377): state, SEQ, TF and TOTAL of each slot, then SLATELOST. -/
def execSlateList (s : State) : Host.Outcome State Fault Refusal :=
  let slot (i : Nat) : List Byte := match (s.slates[i]?).getD none with
    | none => leBytes 32 0
    | some x => leBytes 8 (if x.acked then 2 else 1) ++ leBytes 8 x.seq.toNat ++ leBytes 8 x.tf.toNat ++ leBytes 8 x.total
  .next (s.reply .success ((List.range 8).flatMap slot ++ leBytes 4 s.slateLost.toNat))

/-- SLATE_READ (spec 21 R376, R377); input: slot, view, offset, length. -/
def execSlateRead (s : State) : Host.Outcome State Fault Refusal :=
  match s.input with
  | .slate i view off n =>
    match (s.slates[i]?).getD none with
    | none => .next (s.reply .error [])
    | some x =>
      if view = 0xFFFD || view = 0xFFFE then .next (s.reply .error [])
      else .next (s.reply .success (((x.view view.toNat).drop off).take n))
  | _ => .next s

/-- SLATE_ACK (spec 21 R377); input: the slot. -/
def execSlateAck (s : State) : Host.Outcome State Fault Refusal :=
  match s.input with
  | .index i =>
    match (s.slates[i]?).getD none with
    | none => .next (s.reply .error [])
    | some x => .next (({ s with slates := s.slates.set i (some { x with acked := true }) } : State).reply .success [])
  | _ => .next s

/-- GET_IDENTITY (spec 20 R355). -/
def execGetIdentity (s : State) : Host.Outcome State Fault Refusal :=
  .next (s.reply .success (leBytes 16 Config.serial.toNat ++ leBytes 4 Config.fwVersion.toNat ++ leBytes 4 0
    ++ leBytes 8 s.imageSeq.toNat ++ leBytes 2 Config.certificate.length ++ leBytes 2 0 ++ Config.certificate))

/-- GET_BRINGUP (spec 20 R355). -/
def execGetBringup (s : State) : Host.Outcome State Fault Refusal :=
  .next (s.reply .success (leBytes 4 s.bringup.toNat ++ leBytes 8 s.regions.toNat ++ s.bringLog))

/-- A chunk put at an offset among the bytes of an image that have come. -/
def stageAt (l : List (Option Byte)) (off : Nat) (bs : List Byte) : List (Option Byte) :=
  l.take off ++ List.replicate (off - l.length) none ++ bs.map some ++ l.drop (off + bs.length)

/-- The bytes of a staged image, zero where none has come. -/
def stagedBytes (l : List (Option Byte)) : List Byte := l.map fun b => b.getD 0

/-- Whether every byte of an image has come, as its header counts them. -/
def stagedWhole (l : List (Option Byte)) : Bool :=
  let n := imageLen (stagedBytes l)
  64 ≤ l.length && n ≤ l.length && (l.take (max 64 n)).all Option.isSome

/-- STAGE_CONFIG (spec 20 R355): a chunk of an image staged, whatever the order of the chunks; once the image is complete it is verified,
and one that is valid goes to the inactive flash copy; input: offset and chunk. -/
def execStageConfig (s : State) : Host.Outcome State Fault Refusal :=
  match s.input with
  | .bytes off bs =>
    let l := stageAt s.staged off bs
    let all := stagedBytes l
    if !stagedWhole l then .next (({ s with staged := l } : State).reply .success [])
    else if !imageValid all then .next (({ s with staged := [] } : State).reply .error [])
    else
      let s1 := if s.flashActive then { s with staged := [], flash0 := { bytes := all } }
        else { s with staged := [], flash1 := { bytes := all } }
      .next (s1.reply .success [])
  | _ => .next s

/-- The applied image's header and records. -/
def State.appliedBody (s : State) : List Byte := imageBody (if s.flashActive then s.flash1.bytes else s.flash0.bytes)

/-- ATTEST (spec 20 R355): the digests of firmware and image with the nonce, signed; input: the nonce of 32 bytes. -/
def execAttest (s : State) : Host.Outcome State Fault Refusal :=
  match s.input with
  | .bytes _ nonce =>
    if nonce.length != 32 then .next (s.reply .error [])
    else
      let m := sha256 s.firmware ++ sha256 s.appliedBody ++ nonce
      .next (s.reply .success (m ++ signature m))
  | _ => .next s

/-- PORT_SEND (spec 20 R354, R355): a message queued on a chip-to-chip port, or Busy where the port is down or its queue full. How many
queued messages have left is not given; input: port and message. -/
def execPortSend (s : State) : Host.Outcome State Fault Refusal :=
  match s.input with
  | .bytes p msg =>
    match s.ports[p]? with
    | none => .next (s.reply .error [])
    | some port =>
      if msg.length != 256 then .next (s.reply .error [])
      else if !s.linkUp p then .next (s.reply .busy [])
      else
        let d := s.draw
        let left := port.out.drop (min port.out.length (Config.freeChoice d.1 (port.out.length + 1)))
        if left.length < 16 then
          .next (({ d.2 with ports := s.ports.set p { port with out := left ++ [msg] } } : State).reply .success [])
        else .next (d.2.reply .busy [])
  | _ => .next s

/-- PORT_RECV (spec 20 R355): the oldest received message, or none; input: the port. -/
def execPortRecv (s : State) : Host.Outcome State Fault Refusal :=
  match s.input with
  | .index p =>
    match s.ports[p]? with
    | none => .next (s.reply .error [])
    | some port => match port.inn with
      | [] => .next (s.reply .success [])
      | m :: ms => .next (({ s with ports := s.ports.set p { port with inn := ms } } : State).reply .success m)
  | _ => .next s

/-- PORT_MESSAGE_RECEIVE (spec 20 R354): a message arrives on a chip-to-chip port that is up; input: port and message. -/
def execPortMessageReceive (s : State) : Host.Outcome State Fault Refusal :=
  match s.input with
  | .bytes p msg =>
    .next (if p < 12 && s.linkUp p && msg.length = 256 then
      { s with ports := s.ports.modify p fun port => { port with inn := port.inn ++ [msg] } } else s)
  | _ => .next s

end Sys2Proof.Machine
end

