-- ==== Sys2Proof/Machine/MaskForms.lean ====
section
/-! DEFINITION. Lane masks and predicates (spec 08 R206 to R208). -/

namespace Sys2Proof.Machine

/-- A mask operand: a vector pair is read at the lane of R17 (spec 08 R188). -/
def Iss.mask (x : Iss) (a : Src) : Mask := x.pair a x.ul

/-- A mask form of two operands (spec 08 R206). -/
def maskEff (f : Mask → Mask → Mask) : Iss → State → Eff := pure1 fun x _ =>
  x.deliver true fun _ => f (x.mask x.e.sa) (x.mask x.e.sb)

/-- A number as the result of a form with a 32-bit scalar destination. -/
def numEff (f : Iss → Nat) : Iss → State → Eff := pure1 fun x _ => x.deliver false fun _ => BitVec.ofNat 64 (f x)

/-- Index of the lowest 1 bit of a mask; 64 for none (spec 08 R206). -/
def lowestBit (m : Mask) : Nat := ((List.range 64).find? fun i => m.getLsbD i).getD 64

/-- Number of 1 bits of a mask. -/
def maskCount (m : Mask) : Nat := ((List.range 64).filter fun i => m.getLsbD i).length

/-- MAND (spec 08 R206). -/
def execMand (e : Enc) (s : State) : Host.Outcome State Fault Refusal := issue 0x35 0 e s (maskEff fun a b => a &&& b)
/-- MOR (spec 08 R206). -/
def execMor (e : Enc) (s : State) : Host.Outcome State Fault Refusal := issue 0x36 0 e s (maskEff fun a b => a ||| b)
/-- MXOR (spec 08 R206). -/
def execMxor (e : Enc) (s : State) : Host.Outcome State Fault Refusal := issue 0x37 0 e s (maskEff fun a b => a ^^^ b)
/-- MANDN (spec 08 R206). -/
def execMandn (e : Enc) (s : State) : Host.Outcome State Fault Refusal := issue 0x38 0 e s (maskEff fun a b => a &&& ~~~b)
/-- MPOPC (spec 08 R206). -/
def execMpopc (e : Enc) (s : State) : Host.Outcome State Fault Refusal := issue 0x39 0 e s (numEff fun x => maskCount (x.mask x.e.sa))
/-- MFFS (spec 08 R206). -/
def execMffs (e : Enc) (s : State) : Host.Outcome State Fault Refusal := issue 0x3A 0 e s (numEff fun x => lowestBit (x.mask x.e.sa))
/-- MBIT (spec 08 R206). -/
def execMbit (e : Enc) (s : State) : Host.Outcome State Fault Refusal := issue 0x3B 0 e s (numEff fun x => if (x.mask x.e.sa).getLsbD ((x.word x.e.sb x.ul).toNat % 64) then 1 else 0)

/-- A predicate form: a result for each lane (spec 08 R207). -/
def predEff (f : Iss → Nat → Bool) : Iss → State → Eff := pure1 fun x _ => x.deliver false fun i => if f x i then 1 else 0

/-- PAND (spec 08 R207). -/
def execPand (e : Enc) (s : State) : Host.Outcome State Fault Refusal := issue 0x40 0 e s (predEff fun x i => x.pred x.e.sa i && x.pred x.e.sb i)
/-- POR (spec 08 R207). -/
def execPor (e : Enc) (s : State) : Host.Outcome State Fault Refusal := issue 0x41 0 e s (predEff fun x i => x.pred x.e.sa i || x.pred x.e.sb i)
/-- PXOR (spec 08 R207). -/
def execPxor (e : Enc) (s : State) : Host.Outcome State Fault Refusal := issue 0x42 0 e s (predEff fun x i => x.pred x.e.sa i != x.pred x.e.sb i)
/-- PNOT (spec 08 R207). -/
def execPnot (e : Enc) (s : State) : Host.Outcome State Fault Refusal := issue 0x43 0 e s (predEff fun x i => !x.pred x.e.sa i)
/-- PMOV (spec 08 R207). -/
def execPmov (e : Enc) (s : State) : Host.Outcome State Fault Refusal := issue 0x44 0 e s (predEff fun x i => x.pred x.e.sa i)

/-- The active lanes in which a predicate operand holds. -/
def Iss.held (x : Iss) : Mask := maskOf x.g.width fun i => x.g.exec.getLsbD i && x.pred x.e.sa i

/-- PTOM (spec 08 R208). -/
def execPtom (e : Enc) (s : State) : Host.Outcome State Fault Refusal := issue 0x45 0 e s (pure1 fun x _ => x.deliver true fun _ => x.held)
/-- MTOP (spec 08 R208). -/
def execMtop (e : Enc) (s : State) : Host.Outcome State Fault Refusal := issue 0x46 0 e s (predEff fun x i => (x.mask x.e.sa).getLsbD i)
/-- PANY (spec 08 R208). -/
def execPany (e : Enc) (s : State) : Host.Outcome State Fault Refusal := issue 0x47 0 e s (numEff fun x => if x.held = 0 then 0 else 1)
/-- PALL (spec 08 R208). -/
def execPall (e : Enc) (s : State) : Host.Outcome State Fault Refusal := issue 0x48 0 e s (numEff fun x => if x.held = x.g.exec then 1 else 0)

end Sys2Proof.Machine
end

