-- ==== Sys2Proof/Machine/ModForms.lean ====
section
/-! DEFINITION. Modular arithmetic (spec 09 R237, R238). -/

namespace Sys2Proof.Machine

/-- A modular form: f gives the number to reduce from the width and the two patterns; the modulus is PFORM's, or in the 128-bit
form the third source's in each lane (spec 09 R237, R238). -/
def modularEff (f : Nat → Int → Int → Int) : Iss → State → Eff := pure1 fun x _ =>
  let pat (a : Src) (i : Nat) : Nat := x.elem a x.e.ty 0 false i 0
  x.deliver x.wide fun i =>
    BitVec.ofInt 64 (reduceForm (f (tyBits x.e.ty) (pat x.e.sa i) (pat x.e.sb i)) x.g.pform
      (if x.e.ext.lenCode = 2 then (pat x.e.sc i : Int) else 0))

/-- MADD (spec 09 R237). -/
def execMadd (e : Enc) (s : State) : Host.Outcome State Fault Refusal := issue 0xA0 0 e s (modularEff fun _ a b => a + b)
/-- MSUB (spec 09 R237). -/
def execMsub (e : Enc) (s : State) : Host.Outcome State Fault Refusal := issue 0xA1 0 e s (modularEff fun _ a b => a - b)
/-- MMUL (spec 09 R237). -/
def execMmul (e : Enc) (s : State) : Host.Outcome State Fault Refusal := issue 0xA2 0 e s (modularEff fun _ a b => a * b)
/-- MRED (spec 09 R237). -/
def execMred (e : Enc) (s : State) : Host.Outcome State Fault Refusal := issue 0xA3 0 e s (modularEff fun n a b => b * (2 ^ n : Nat) + a)

end Sys2Proof.Machine
end

