-- ==== Sys2Proof/Machine/Dispatch.lean ====
section
/-! DEFINITION. One arm for each constructor of Instr: a direct call of its meaning. -/

namespace Sys2Proof.Machine

/-- What an instruction or an event of the device does. -/
def exec (i : Instr) (s : State) : Host.Outcome State Fault Refusal :=
  match i with
  | .nop e => Sys2Proof.Machine.execNop e s
  | .exit e => Sys2Proof.Machine.execExit e s
  | .bra e => Sys2Proof.Machine.execBra e s
  | .brz e => Sys2Proof.Machine.execBrz e s
  | .brnz e => Sys2Proof.Machine.execBrnz e s
  | .call e => Sys2Proof.Machine.execCall e s
  | .calli e => Sys2Proof.Machine.execCalli e s
  | .ret e => Sys2Proof.Machine.execRet e s
  | .jmpi e => Sys2Proof.Machine.execJmpi e s
  | .skipz e => Sys2Proof.Machine.execSkipz e s
  | .divb e => Sys2Proof.Machine.execDivb e s
  | .join e => Sys2Proof.Machine.execJoin e s
  | .yield e => Sys2Proof.Machine.execYield e s
  | .bar e => Sys2Proof.Machine.execBar e s
  | .bara e => Sys2Proof.Machine.execBara e s
  | .barw e => Sys2Proof.Machine.execBarw e s
  | .sleep e => Sys2Proof.Machine.execSleep e s
  | .prio e => Sys2Proof.Machine.execPrio e s
  | .getid e => Sys2Proof.Machine.execGetid e s
  | .csrr e => Sys2Proof.Machine.execCsrr e s
  | .csrw e => Sys2Proof.Machine.execCsrw e s
  | .csrxSwap e => Sys2Proof.Machine.execCsrxSwap e s
  | .csrxSet e => Sys2Proof.Machine.execCsrxSet e s
  | .csrxClear e => Sys2Proof.Machine.execCsrxClear e s
  | .lpcr e => Sys2Proof.Machine.execLpcr e s
  | .trap e => Sys2Proof.Machine.execTrap e s
  | .svc e => Sys2Proof.Machine.execSvc e s
  | .eret e => Sys2Proof.Machine.execEret e s
  | .mark e => Sys2Proof.Machine.execMark e s
  | .tsrd e => Sys2Proof.Machine.execTsrd e s
  | .smov e => Sys2Proof.Machine.execSmov e s
  | .sadd e => Sys2Proof.Machine.execSadd e s
  | .ssub e => Sys2Proof.Machine.execSsub e s
  | .smul e => Sys2Proof.Machine.execSmul e s
  | .smulh e => Sys2Proof.Machine.execSmulh e s
  | .sdiv e => Sys2Proof.Machine.execSdiv e s
  | .srem e => Sys2Proof.Machine.execSrem e s
  | .sand e => Sys2Proof.Machine.execSand e s
  | .sor e => Sys2Proof.Machine.execSor e s
  | .sxor e => Sys2Proof.Machine.execSxor e s
  | .sshl e => Sys2Proof.Machine.execSshl e s
  | .sshr e => Sys2Proof.Machine.execSshr e s
  | .ssar e => Sys2Proof.Machine.execSsar e s
  | .smin e => Sys2Proof.Machine.execSmin e s
  | .smax e => Sys2Proof.Machine.execSmax e s
  | .scmp e => Sys2Proof.Machine.execScmp e s
  | .ssel e => Sys2Proof.Machine.execSsel e s
  | .sbfe e => Sys2Proof.Machine.execSbfe e s
  | .sbfi e => Sys2Proof.Machine.execSbfi e s
  | .spopc e => Sys2Proof.Machine.execSpopc e s
  | .sclz e => Sys2Proof.Machine.execSclz e s
  | .mand e => Sys2Proof.Machine.execMand e s
  | .mor e => Sys2Proof.Machine.execMor e s
  | .mxor e => Sys2Proof.Machine.execMxor e s
  | .mandn e => Sys2Proof.Machine.execMandn e s
  | .mpopc e => Sys2Proof.Machine.execMpopc e s
  | .mffs e => Sys2Proof.Machine.execMffs e s
  | .mbit e => Sys2Proof.Machine.execMbit e s
  | .pand e => Sys2Proof.Machine.execPand e s
  | .por e => Sys2Proof.Machine.execPor e s
  | .pxor e => Sys2Proof.Machine.execPxor e s
  | .pnot e => Sys2Proof.Machine.execPnot e s
  | .pmov e => Sys2Proof.Machine.execPmov e s
  | .ptom e => Sys2Proof.Machine.execPtom e s
  | .mtop e => Sys2Proof.Machine.execMtop e s
  | .pany e => Sys2Proof.Machine.execPany e s
  | .pall e => Sys2Proof.Machine.execPall e s
  | .vmov e => Sys2Proof.Machine.execVmov e s
  | .vadd e => Sys2Proof.Machine.execVadd e s
  | .vsub e => Sys2Proof.Machine.execVsub e s
  | .vaddc e => Sys2Proof.Machine.execVaddc e s
  | .vsubb e => Sys2Proof.Machine.execVsubb e s
  | .vmul e => Sys2Proof.Machine.execVmul e s
  | .vmulh e => Sys2Proof.Machine.execVmulh e s
  | .vmad e => Sys2Proof.Machine.execVmad e s
  | .vmadw e => Sys2Proof.Machine.execVmadw e s
  | .vabsd e => Sys2Proof.Machine.execVabsd e s
  | .vand e => Sys2Proof.Machine.execVand e s
  | .vor e => Sys2Proof.Machine.execVor e s
  | .vxor e => Sys2Proof.Machine.execVxor e s
  | .vnot e => Sys2Proof.Machine.execVnot e s
  | .vshl e => Sys2Proof.Machine.execVshl e s
  | .vshr e => Sys2Proof.Machine.execVshr e s
  | .vsar e => Sys2Proof.Machine.execVsar e s
  | .vrot e => Sys2Proof.Machine.execVrot e s
  | .vmin e => Sys2Proof.Machine.execVmin e s
  | .vmax e => Sys2Proof.Machine.execVmax e s
  | .vclz e => Sys2Proof.Machine.execVclz e s
  | .vpopc e => Sys2Proof.Machine.execVpopc e s
  | .vbfe e => Sys2Proof.Machine.execVbfe e s
  | .vbfi e => Sys2Proof.Machine.execVbfi e s
  | .vcmp e => Sys2Proof.Machine.execVcmp e s
  | .vsel e => Sys2Proof.Machine.execVsel e s
  | .vcvt e => Sys2Proof.Machine.execVcvt e s
  | .fadd e => Sys2Proof.Machine.execFadd e s
  | .fsub e => Sys2Proof.Machine.execFsub e s
  | .fmul e => Sys2Proof.Machine.execFmul e s
  | .ffma e => Sys2Proof.Machine.execFfma e s
  | .fmin e => Sys2Proof.Machine.execFmin e s
  | .fmax e => Sys2Proof.Machine.execFmax e s
  | .fcmp e => Sys2Proof.Machine.execFcmp e s
  | .fclass e => Sys2Proof.Machine.execFclass e s
  | .fdiv e => Sys2Proof.Machine.execFdiv e s
  | .fsqrt e => Sys2Proof.Machine.execFsqrt e s
  | .frcp e => Sys2Proof.Machine.execFrcp e s
  | .frsq e => Sys2Proof.Machine.execFrsq e s
  | .fexp2 e => Sys2Proof.Machine.execFexp2 e s
  | .flog2 e => Sys2Proof.Machine.execFlog2 e s
  | .fsin e => Sys2Proof.Machine.execFsin e s
  | .fcos e => Sys2Proof.Machine.execFcos e s
  | .fcvt e => Sys2Proof.Machine.execFcvt e s
  | .frnd e => Sys2Proof.Machine.execFrnd e s
  | .fscl e => Sys2Proof.Machine.execFscl e s
  | .vshufIdx e => Sys2Proof.Machine.execVshufIdx e s
  | .vshufXor e => Sys2Proof.Machine.execVshufXor e s
  | .vshufUp e => Sys2Proof.Machine.execVshufUp e s
  | .vshufDown e => Sys2Proof.Machine.execVshufDown e s
  | .vbcast e => Sys2Proof.Machine.execVbcast e s
  | .vrotl e => Sys2Proof.Machine.execVrotl e s
  | .vredAdd e => Sys2Proof.Machine.execVredAdd e s
  | .vredMin e => Sys2Proof.Machine.execVredMin e s
  | .vredMax e => Sys2Proof.Machine.execVredMax e s
  | .vredAnd e => Sys2Proof.Machine.execVredAnd e s
  | .vredOr e => Sys2Proof.Machine.execVredOr e s
  | .vredXor e => Sys2Proof.Machine.execVredXor e s
  | .vscanAdd e => Sys2Proof.Machine.execVscanAdd e s
  | .vscanMin e => Sys2Proof.Machine.execVscanMin e s
  | .vscanMax e => Sys2Proof.Machine.execVscanMax e s
  | .vscanAnd e => Sys2Proof.Machine.execVscanAnd e s
  | .vscanOr e => Sys2Proof.Machine.execVscanOr e s
  | .vscanXor e => Sys2Proof.Machine.execVscanXor e s
  | .rvsend e => Sys2Proof.Machine.execRvsend e s
  | .rvrecv e => Sys2Proof.Machine.execRvrecv e s
  | .badd e => Sys2Proof.Machine.execBadd e s
  | .bsub e => Sys2Proof.Machine.execBsub e s
  | .bneg e => Sys2Proof.Machine.execBneg e s
  | .bcmp e => Sys2Proof.Machine.execBcmp e s
  | .bshl e => Sys2Proof.Machine.execBshl e s
  | .bshr e => Sys2Proof.Machine.execBshr e s
  | .bmull e => Sys2Proof.Machine.execBmull e s
  | .bmulh e => Sys2Proof.Machine.execBmulh e s
  | .bmuls e => Sys2Proof.Machine.execBmuls e s
  | .bdivqr e => Sys2Proof.Machine.execBdivqr e s
  | .blenTag e => Sys2Proof.Machine.execBlenTag e s
  | .blenResize e => Sys2Proof.Machine.execBlenResize e s
  | .bnorm e => Sys2Proof.Machine.execBnorm e s
  | .bspill e => Sys2Proof.Machine.execBspill e s
  | .bfill e => Sys2Proof.Machine.execBfill e s
  | .cres e => Sys2Proof.Machine.execCres e s
  | .madd e => Sys2Proof.Machine.execMadd e s
  | .msub e => Sys2Proof.Machine.execMsub e s
  | .mmul e => Sys2Proof.Machine.execMmul e s
  | .mred e => Sys2Proof.Machine.execMred e s
  | .ld e => Sys2Proof.Machine.execLd e s
  | .ldu e => Sys2Proof.Machine.execLdu e s
  | .st e => Sys2Proof.Machine.execSt e s
  | .ldb e => Sys2Proof.Machine.execLdb e s
  | .stb e => Sys2Proof.Machine.execStb e s
  | .atomAdd e => Sys2Proof.Machine.execAtomAdd e s
  | .atomAnd e => Sys2Proof.Machine.execAtomAnd e s
  | .atomOr e => Sys2Proof.Machine.execAtomOr e s
  | .atomXor e => Sys2Proof.Machine.execAtomXor e s
  | .atomMin e => Sys2Proof.Machine.execAtomMin e s
  | .atomMax e => Sys2Proof.Machine.execAtomMax e s
  | .atomExch e => Sys2Proof.Machine.execAtomExch e s
  | .atomCas e => Sys2Proof.Machine.execAtomCas e s
  | .atomcCas e => Sys2Proof.Machine.execAtomcCas e s
  | .atomXadd e => Sys2Proof.Machine.execAtomXadd e s
  | .redAdd e => Sys2Proof.Machine.execRedAdd e s
  | .redAnd e => Sys2Proof.Machine.execRedAnd e s
  | .redOr e => Sys2Proof.Machine.execRedOr e s
  | .redXor e => Sys2Proof.Machine.execRedXor e s
  | .redMin e => Sys2Proof.Machine.execRedMin e s
  | .redMax e => Sys2Proof.Machine.execRedMax e s
  | .waitc e => Sys2Proof.Machine.execWaitc e s
  | .waitcScFence e => Sys2Proof.Machine.execWaitcScFence e s
  | .pref e => Sys2Proof.Machine.execPref e s
  | .cflush e => Sys2Proof.Machine.execCflush e s
  | .cinv e => Sys2Proof.Machine.execCinv e s
  | .xcopy e => Sys2Proof.Machine.execXcopy e s
  | .xreg e => Sys2Proof.Machine.execXreg e s
  | .xgath e => Sys2Proof.Machine.execXgath e s
  | .xchain e => Sys2Proof.Machine.execXchain e s
  | .qpush e => Sys2Proof.Machine.execQpush e s
  | .qpop e => Sys2Proof.Machine.execQpop e s
  | .halloc e => Sys2Proof.Machine.execHalloc e s
  | .hfree e => Sys2Proof.Machine.execHfree e s
  | .rgive e => Sys2Proof.Machine.execRgive e s
  | .rclaim e => Sys2Proof.Machine.execRclaim e s
  | .mxmac e => Sys2Proof.Machine.execMxmac e s
  | .mxpair e => Sys2Proof.Machine.execMxpair e s
  | .mxrd e => Sys2Proof.Machine.execMxrd e s
  | .mxwr e => Sys2Proof.Machine.execMxwr e s
  | .mxz e => Sys2Proof.Machine.execMxz e s
  | .boomld e => Sys2Proof.Machine.execBoomld e s
  | .bmul e => Sys2Proof.Machine.execBmul e s
  | .ntt e => Sys2Proof.Machine.execNtt e s
  | .intt e => Sys2Proof.Machine.execIntt e s
  | .kswitch e => Sys2Proof.Machine.execKswitch e s
  | .xcrt e => Sys2Proof.Machine.execXcrt e s
  | .lnest e => Sys2Proof.Machine.execLnest e s
  | .cuepush e => Sys2Proof.Machine.execCuepush e s
  | .cuepop e => Sys2Proof.Machine.execCuepop e s
  | .gainadd e => Sys2Proof.Machine.execGainadd e s
  | .gainset e => Sys2Proof.Machine.execGainset e s
  | .resadd e => Sys2Proof.Machine.execResadd e s
  | .grow e => Sys2Proof.Machine.execGrow e s
  | .sklook e => Sys2Proof.Machine.execSklook e s
  | .skld e => Sys2Proof.Machine.execSkld e s
  | .skref e => Sys2Proof.Machine.execSkref e s
  | .skunref e => Sys2Proof.Machine.execSkunref e s
  | .skcopy e => Sys2Proof.Machine.execSkcopy e s
  | .rootcas e => Sys2Proof.Machine.execRootcas e s
  | .reservedOpc w => Sys2Proof.Machine.execReservedOpc w s
  | .sleepIntervalEnd => Sys2Proof.Machine.execSleepIntervalEnd s
  | .rendezvousPairing => Sys2Proof.Machine.execRendezvousPairing s
  | .copyOperationCompletion => Sys2Proof.Machine.execCopyOperationCompletion s
  | .heapOperationCompletion => Sys2Proof.Machine.execHeapOperationCompletion s
  | .mxpairPairing => Sys2Proof.Machine.execMxpairPairing s
  | .mxpairTimeout => Sys2Proof.Machine.execMxpairTimeout s
  | .matrixOperationStart => Sys2Proof.Machine.execMatrixOperationStart s
  | .matrixOperationCompletion => Sys2Proof.Machine.execMatrixOperationCompletion s
  | .tokenGrant => Sys2Proof.Machine.execTokenGrant s
  | .burstEndLimit => Sys2Proof.Machine.execBurstEndLimit s
  | .burstEndIdle => Sys2Proof.Machine.execBurstEndIdle s
  | .nttUnitOperationCompletion => Sys2Proof.Machine.execNttUnitOperationCompletion s
  | .streamEngineCompletion => Sys2Proof.Machine.execStreamEngineCompletion s
  | .cueWriteOut => Sys2Proof.Machine.execCueWriteOut s
  | .lookupOrAllocate => Sys2Proof.Machine.execLookupOrAllocate s
  | .stockOperationCompletion => Sys2Proof.Machine.execStockOperationCompletion s
  | .loadCompletion => Sys2Proof.Machine.execLoadCompletion s
  | .storeCompletion => Sys2Proof.Machine.execStoreCompletion s
  | .pageWalk => Sys2Proof.Machine.execPageWalk s
  | .faultRecord => Sys2Proof.Machine.execFaultRecord s
  | .retry => Sys2Proof.Machine.execRetry s
  | .fail => Sys2Proof.Machine.execFail s
  | .tlbinv => Sys2Proof.Machine.execTlbinv s
  | .tlbInvalidateDone => Sys2Proof.Machine.execTlbInvalidateDone s
  | .dependenceCheck => Sys2Proof.Machine.execDependenceCheck s
  | .packetTake => Sys2Proof.Machine.execPacketTake s
  | .teamDispatch => Sys2Proof.Machine.execTeamDispatch s
  | .teamAdmission => Sys2Proof.Machine.execTeamAdmission s
  | .gridCompletion => Sys2Proof.Machine.execGridCompletion s
  | .preempt => Sys2Proof.Machine.execPreempt s
  | .preemptImageWrite => Sys2Proof.Machine.execPreemptImageWrite s
  | .restore => Sys2Proof.Machine.execRestore s
  | .keyLoad => Sys2Proof.Machine.execKeyLoad s
  | .keyDestroy => Sys2Proof.Machine.execKeyDestroy s
  | .keyDestroySlice => Sys2Proof.Machine.execKeyDestroySlice s
  | .mapoutAck => Sys2Proof.Machine.execMapoutAck s
  | .bankroleWrite => Sys2Proof.Machine.execBankroleWrite s
  | .bankRoleTakeUp => Sys2Proof.Machine.execBankRoleTakeUp s
  | .smpctlWrite => Sys2Proof.Machine.execSmpctlWrite s
  | .registerWrite => Sys2Proof.Machine.execRegisterWrite s
  | .correctedError => Sys2Proof.Machine.execCorrectedError s
  | .uncorrectableMemoryError => Sys2Proof.Machine.execUncorrectableMemoryError s
  | .patrolScrub => Sys2Proof.Machine.execPatrolScrub s
  | .contextDataError => Sys2Proof.Machine.execContextDataError s
  | .coreHardwareFault => Sys2Proof.Machine.execCoreHardwareFault s
  | .dieControlFault => Sys2Proof.Machine.execDieControlFault s
  | .coreReset => Sys2Proof.Machine.execCoreReset s
  | .coldReset => Sys2Proof.Machine.execColdReset s
  | .warmReset => Sys2Proof.Machine.execWarmReset s
  | .powerLoss => Sys2Proof.Machine.execPowerLoss s
  | .coreHot => Sys2Proof.Machine.execCoreHot s
  | .coreHotClear => Sys2Proof.Machine.execCoreHotClear s
  | .droopEvent => Sys2Proof.Machine.execDroopEvent s
  | .budgetWindow => Sys2Proof.Machine.execBudgetWindow s
  | .linkStateChange => Sys2Proof.Machine.execLinkStateChange s
  | .hostMemoryAccess => Sys2Proof.Machine.execHostMemoryAccess s
  | .getIdentity => Sys2Proof.Machine.execGetIdentity s
  | .getBringup => Sys2Proof.Machine.execGetBringup s
  | .stageConfig => Sys2Proof.Machine.execStageConfig s
  | .attest => Sys2Proof.Machine.execAttest s
  | .portSend => Sys2Proof.Machine.execPortSend s
  | .portRecv => Sys2Proof.Machine.execPortRecv s
  | .portMessageReceive => Sys2Proof.Machine.execPortMessageReceive s
  | .ptpEventMessage => Sys2Proof.Machine.execPtpEventMessage s
  | .slateList => Sys2Proof.Machine.execSlateList s
  | .slateRead => Sys2Proof.Machine.execSlateRead s
  | .slateAck => Sys2Proof.Machine.execSlateAck s
  | .epoch => Sys2Proof.Machine.execEpoch s
  | .freeze => Sys2Proof.Machine.execFreeze s
  | .slateStore => Sys2Proof.Machine.execSlateStore s
  | .reelMirrorWrite => Sys2Proof.Machine.execReelMirrorWrite s
  | .sampleInstant => Sys2Proof.Machine.execSampleInstant s
  | .sampleWrite => Sys2Proof.Machine.execSampleWrite s
  | .instructionFetch => Sys2Proof.Machine.execInstructionFetch s
  | .multiCycleFormCompletion => Sys2Proof.Machine.execMultiCycleFormCompletion s
  | .bmulSchoolbookCompletion => Sys2Proof.Machine.execBmulSchoolbookCompletion s
  | .cycleCountOverflow => Sys2Proof.Machine.execCycleCountOverflow s
  | .temperatureSensorReading => Sys2Proof.Machine.execTemperatureSensorReading s
  | .hostAgentAccess => Sys2Proof.Machine.execHostAgentAccess s

end Sys2Proof.Machine
end

