-- ==== Sys2Proof/Machine/Moves.lean ====
section
/-! DEFINITION. The moves of the device's own agents where no move is laid down: those that their time forces, and those that can
happen at any time (log 2). -/

namespace Sys2Proof.Machine

/-- A move: an event, and what it is about. -/
abbrev OwnMove := Instr × Input

/-- The indices of the entries of a list for which a condition holds. -/
def indicesOf {α : Type} (p : α → Bool) (l : List α) : List Nat :=
  ((List.range l.length).zip l).filterMap fun x => if p x.2 then some x.1 else none

/-- Waiting MXPAIRs that are 512 cycles old (spec 11 R265). -/
def State.pairsDue (s : State) : List PairWait :=
  (s.teams.flatMap fun t => t.pairEven ++ t.pairOdd).filter fun w => !w.paired && w.at_ + 512 ≤ s.cycle

/-- Clusters of the device that hold a token and meet a condition, as die and cluster. -/
def State.bursts (s : State) (p : Cluster → Bool) : List (Nat × Nat) :=
  ((List.range s.dies.length).zip s.dies).flatMap fun (d, x) => (indicesOf (fun c => c.token && p c) x.clusters).map fun c => (d, c)

/-- Whether a core is to become hot. -/
def State.heats (s : State) (c : Core) : Bool := !c.hot && (95 ≤ c.temp.toNat || 4 ≤ s.droopCount c)

/-- Whether a new budget window is to open: where some die has a budget (spec 18 R326). -/
def State.windowDue (s : State) : Bool :=
  s.dies.any fun d => (d.bwb.any (· != 0)) && d.bwWindow < s.nstime.toNat / 1000

/-- Sleeping groups whose interval has ended (spec 08 R198). -/
def State.sleepersDue (s : State) : List Nat :=
  indicesOf (fun g => match g.wait with
    | .sleep t => g.live && decide (t ≤ s.cycle)
    | _ => false) s.groups

/-- Whether MXPAIRs of a team are to be paired, can enter their queues, or have lost their partners (spec 11 R265). -/
def State.pairable (s : State) (t : Team) : Bool :=
  (s.pairsNow t).isSome || (s.entersNow t).isSome || (t.lost.isSome && !(t.pairEven ++ t.pairOdd).isEmpty)

/-- One event for each input, or for each of some numbers; a lone event where a condition holds. -/
def moves (i : Instr) (l : List Input) : List OwnMove := l.map fun a => (i, a)
def movesAt (i : Instr) (l : List Nat) : List OwnMove := l.map fun n => (i, Input.index n)
def moveIf (c : Bool) (i : Instr) : List OwnMove := if c then [(i, Input.nothing)] else []

/-- Pairs of numbers as inputs. -/
def pairsIn (l : List (Nat × Nat)) : List Input := l.map fun x => Input.index2 x.1 x.2

/-- The moves that are due: what their time forces before any time passes. -/
def State.dueMoves (s : State) : List OwnMove :=
  List.flatten
    [moveIf (s.epochBit != s.nstime.getLsbD 39) .epoch,
     movesAt .freeze (if s.assembling then indicesOf (fun r => !r.frozen) s.rings else []),
     movesAt .sleepIntervalEnd s.sleepersDue,
     movesAt .mxpairPairing (indicesOf s.pairable s.teams),
     movesAt .mxpairTimeout (s.pairsDue.map PairWait.g),
     moveIf (s.cue.owner.any s.writeOutDue) .cueWriteOut,
     moves .burstEndLimit (pairsIn (s.bursts fun c => c.taken + 8192 ≤ s.cycle)),
     moves .burstEndIdle (pairsIn (s.bursts fun c => c.lastMx + 64 ≤ s.cycle)),
     movesAt .coreHot (indicesOf s.heats s.cores),
     movesAt .coreHotClear (indicesOf (fun c => c.cooled s.nstime.toNat) s.cores),
     moveIf s.windowDue .budgetWindow]

/-- The first of them. -/
def State.dueMove (s : State) : Option OwnMove := s.dueMoves.head?

/-- Cycles after which NSTIME has advanced by at least d nanoseconds. -/
def State.cyclesFor (s : State) (d : Nat) : Nat := (9 * d - s.nsRem + 3) / 4

/-- Whether the next cycle can let a group issue that cannot in this one: it tries again, its quadrant's slot is taken, or its die or core
has ended the cycle's attempts. -/
def State.nextTurn (s : State) (g : Group) : Bool :=
  (s.issuing g.core g.quad).isSome || s.attempted g.core || (match g.wait with
    | .again _ _ _ => true
    | _ => false)

/-- Cycles until each move becomes due that only time brings about. -/
def State.timers (s : State) : List Nat :=
  let now := s.nstime.toNat
  let till (t : Nat) : List Nat := if s.cycle < t then [t - s.cycle] else []
  let tillNs (t : Nat) : List Nat := if now < t then [s.cyclesFor (t - now)] else []
  let sleeps : List Nat := s.groups.flatMap fun g => match g.wait with
    | .sleep t => if g.live then till t else []
    | _ => []
  let pairs : List Nat := (s.teams.flatMap fun t => t.pairEven ++ t.pairOdd).flatMap fun w => till (w.at_ + 512)
  let bursts : List Nat := s.dies.flatMap fun d => d.clusters.flatMap fun c =>
    if c.token then till (c.taken + 8192) ++ till (c.lastMx + 64) else []
  let samples : List Nat := s.cores.flatMap fun c => if c.smp.en then till c.smp.next else []
  let heat : List Nat := s.cores.flatMap fun c => match c.coolSince with
    | some t => if c.hot then tillNs (t + 200000) else []
    | none => []
  let window : List Nat := if s.dies.any fun d => d.bwb.any (· != 0) then tillNs ((now / 1000 + 1) * 1000) else []
  let next : List Nat := if (s.groups.any fun g => g.live && s.nextTurn g) || !s.tokenDies.isEmpty then [1] else []
  List.flatten [tillNs ((now / 2 ^ 39 + 1) * 2 ^ 39), next, sleeps, pairs, bursts, samples, heat, window]

/-- Cycles that can pass before some move is due, at least 1. -/
def State.untilDue (s : State) : Nat := max 1 ((s.timers.min?).getD 1)

/-- The event with which an outstanding operation goes on. -/
def Op.move (o : Op) (gi : Nat) (core : Nat) : List OwnMove :=
  let at_ : Input := .index2 gi o.id
  if o.phase = .done || o.phase = .paused then []
  else
    match o.body with
    | .plain => match o.cls with
      | some .ld => [(.loadCompletion, at_)]
      | some .st => [(.storeCompletion, at_)]
      | none => [(.multiCycleFormCompletion, at_)]
      | _ => []
    | .mem _ => [(if o.cls = some .st then .storeCompletion else .loadCompletion, at_)]
    | .copy _ _ _ _ _ | .regIn _ _ _ _ _ | .regOut _ _ _ | .gather _ _ _ _ _ _ | .walk _ _ | .boomld _ _ _ _ =>
      [(.copyOperationCompletion, at_)]
    | .mxmac _ | .mxpair _ _ | .mxrd _ _ _ | .mxwr _ | .mxz _ _ =>
      [if o.phase = .started then (.matrixOperationCompletion, at_) else (.matrixOperationStart, .index core)]
    | .cres _ _ _ _ _ => [(.matrixOperationCompletion, at_)]
    | .bmul _ _ _ _ _ _ _ _ _ _ _ school =>
      [if !school then (.nttUnitOperationCompletion, at_)
       else if o.phase = .started then (.bmulSchoolbookCompletion, at_) else (.matrixOperationStart, .index core)]
    | .ntt _ _ _ _ _ _ _ _ | .kswitch _ _ _ _ | .xcrt _ => [(.nttUnitOperationCompletion, at_)]
    | .nest _ _ _ _ _ _ => [(.streamEngineCompletion, at_)]
    | .halloc _ _ _ | .hfree _ => [(.heapOperationCompletion, at_)]
    | .sklook _ => [(.lookupOrAllocate, .index gi)]
    | .skld _ _ _ | .skref _ _ | .skcopy _ _ _ _ _ => [(.stockOperationCompletion, at_)]

/-- Moves of the operations of resident groups. -/
def State.opMoves (s : State) : List OwnMove :=
  s.indexed.flatMap fun x => if x.2.live then x.2.ops.flatMap fun o => o.move x.1 x.2.core else []

/-- Moves of resident teams: rendezvous pairings. -/
def State.teamMoves (s : State) : List OwnMove :=
  let rv : List Input := ((List.range s.teams.length).zip s.teams).flatMap fun (ti, t) =>
    ((t.rv.map RvWait.slot).eraseDups.filter fun k => (s.rvReady ti k).isSome).map fun k => Input.index2 ti k
  moves .rendezvousPairing rv

/-- Moves of the dispatcher (spec 18 R314 to R316, 01 R41). -/
def State.launchMoves (s : State) : List OwnMove :=
  let full : List Nat := if s.bringState = 1 && s.lqbase.extractLsb' 12 45 != 0 then (List.range 256).filter s.queueFull else []
  List.flatten
    [moveIf (full.any s.queueReady) .packetTake,
     movesAt .dependenceCheck (full.filter fun q => !s.queueReady q),
     moves .teamDispatch (s.toDispatch.map fun g => Input.grid g.id),
     moveIf (!s.waiting.isEmpty) .teamAdmission,
     moves .gridCompletion ((s.grids.filter fun g => s.gridDone g.id).map fun g => Input.grid g.id)]

/-- Banks that can take up the role that the driver wants, as core and bank (spec 18 R323). -/
def State.roleMoves (s : State) : List (Nat × Nat) :=
  (indicesOf (fun c => c.bankact != c.bankrole) s.cores).flatMap fun n =>
    match s.cores[n]? with
    | none => []
    | some c => ((List.range 32).filter fun b =>
        roleOf c.bankact b != roleOf c.bankrole b && !(s.usedBanks n).contains b).map fun b => (n, b)

/-- Moves of the driver block's units, the rings and the samplers. -/
def State.unitMoves (s : State) : List OwnMove :=
  List.flatten
    [moveIf (s.ringRoom && s.frRecs.any fun r => r.seq.isNone) .faultRecord,
     moveIf (!s.tlbDone && !s.accessing s.tlbCtx) .tlbInvalidateDone,
     moveIf (s.pecmd.op = 1 && s.drained) .preemptImageWrite,
     movesAt .keyDestroySlice s.keyDies,
     moveIf (s.assembling && s.rings.all Ring.frozen) .slateStore,
     movesAt .reelMirrorWrite (indicesOf (fun r => !r.mir.staging.isEmpty) s.rings),
     movesAt .sampleWrite (indicesOf (fun c => !c.smp.staging.isEmpty) s.cores),
     moves .bankRoleTakeUp (pairsIn s.roleMoves)]

/-- The moves that the device's agents can make at any time. -/
def State.ownMoves (s : State) : List OwnMove := s.opMoves ++ s.teamMoves ++ s.launchMoves ++ s.unitMoves

/-- What happens in a step without a move laid down. -/
inductive Choice where
  /-- what is due: no time passes -/
  | due (m : OwnMove)
  /-- a group issues: no time passes before every quadrant has had its turn -/
  | issue (gi : Nat)
  /-- another agent moves, and a cycle passes -/
  | own (m : OwnMove)
  /-- only time passes -/
  | idle (n : Nat)

/-- The agents' moves take turns: n is the number of the turn. -/
def State.turn (s : State) (n : Nat) : Option OwnMove := let l := s.ownMoves; l[n % l.length]?

/-- What happens next (log 2): what is due; a group that its quadrant selects, in each cycle one of every quadrant that can issue (spec 01
R16, R45); then another agent's move, with which the cycle ends; or else time passes. -/
def State.choice (s : State) : Choice :=
  match s.dueMove with
  | some m => .due m
  | none =>
    match s.pickAny with
    | some x => .issue x.1
    | none => match s.turn s.cycle with
      | some m => .own m
      | none => .idle s.untilDue

end Sys2Proof.Machine
end

