-- ==== Sys2Proof/Machine/Step.lean ====
section
/-! DEFINITION. One step of the device (log 2): the next move laid down in the agenda, or else the move that the device makes of
itself: a group that its quadrant selects issues, and where none is left another agent moves or time passes, a cycle at least. -/

namespace Sys2Proof.Machine

/-- The instruction in the block that a group holds: issued, or refused by the decoder (spec 06 R175, R176). -/
def State.issueHeld (s : State) (gi : Nat) : Host.Outcome State Fault Refusal :=
  match (s.groups[gi]?).bind Group.nextInstr with
  | none => .next s
  | some (.error r) => .next (s.rejectTrap gi r)
  | some (.ok i) => exec i s

/-- The device at the turn of a group, which no longer waits to try again. -/
def State.atTurn (s : State) (gi : Nat) : State :=
  let s0 : State := { s with cur := gi }
  match s.groups[gi]? with
  | none => s0
  | some g => match g.wait with
    | .again _ _ _ => s0.setGroup gi { g with wait := .ready }
    | _ => s0

/-- The turn of a group: what it has to issue again, or its fetch block where it does not hold it, then the instruction in it. -/
def State.runGroup (s : State) (gi : Nat) : Host.Outcome State Fault Refusal :=
  let s0 := s.atTurn gi
  match s0.groups[gi]? with
  | none => .next s0
  | some g =>
    if !g.redo.isEmpty then .next ((s0.redo gi).teamExit g.grid g.team)
    else if g.hasBlock then s0.issueHeld gi
    else
      let r := s0.fetchBlock gi
      if r.2 then r.1.issueHeld gi else .next r.1

/-- A next state after which time passes; a fault and a refusal stay. -/
def after (n : Nat) (o : Host.Outcome State Fault Refusal) : Host.Outcome State Fault Refusal :=
  match o with
  | .next s => .next (s.elapse n)
  | o => o

/-- A step without a move laid down (log 2). -/
def State.free (s : State) : Host.Outcome State Fault Refusal :=
  match s.choice with
  | .due m => exec m.1 { s with input := m.2 }
  | .issue gi => s.runGroup gi
  | .own m => after 1 (exec m.1 { s with input := m.2 })
  | .idle n => .next (s.elapse n)

/-- One step: the agenda's next move, or else the device's own choice. Cycles that the agenda lets pass stop where a move is due, and pass
only once every quadrant that can issue has had its turn (spec 01 R45). -/
def step (s : State) : Host.Outcome State Fault Refusal :=
  match s.agenda with
  | .event i a :: rest =>
    if (encode i).isNone then exec i { s with agenda := rest, input := a } else .next { s with agenda := rest }
  | .quadrant c q :: rest =>
    match s.pick c q with
    | none => .next { s with agenda := rest }
    | some x => State.runGroup { s with agenda := rest } x.1
  | .perform gi id lane :: rest => .next (State.performMove { s with agenda := rest } gi id lane)
  | .elapse n :: rest =>
    match s.dueMove with
    | some m => exec m.1 { s with input := m.2 }
    | none =>
      match s.pickAny with
      | some x => s.runGroup x.1
      | none =>
        let k := min n s.untilDue
        .next (State.elapse { s with agenda := if n ≤ k then rest else .elapse (n - k) :: rest } k)
  | [] => s.free

/-- A grid whose kernel is loaded and launched from outside (log 1): one group of 16 lanes with 32 vector registers, eight
accumulator slots and a trap handler. -/
def loadedGrid : Grid :=
  { id := 1, ctx := 0, queue := 0, pri := 0,
    packet := packetOf ((List.range 128).map fun i => if i = 2 then 1 else if i = 68 then 1 else 0),
    kobj := { symcount := 0, argsize := 0, datasize := 0, textsize := 128, cuetask := 0xFFFFFFFF, handler := 0x20, entry := 0,
              stack := 0, allow := 0, queues := 0, boom := 0, opbanks := 0, stage := 4, flags := 0, acc := 8, team := 1,
              regs := 4, width := 16, version := 1, magic := 0x31425843, zero := true },
    gcnt := 1, next := 1, args := [], exited := 0, running := 1, tol := 0, resid := 0, cuestate := 0, cunrun := 0, pre := [],
    fatal := false }

/-- A device in which no group can be selected, with that grid resident on core 0. -/
def State.loaded (s : State) : State :=
  let r := loadedGrid
  let t := Team.atLaunch r 0 0 { Half.none with stage := r.kobj.stageBytes false, units := [(0, 0)] } Half.none []
  { s with grids := [r], teams := [t], groups := [Group.atLaunch r 0 0 0 0 0 false 0 s.cycle], nextGrid := 2 }

/-- The state with an instruction in the fetch block of the group that the next step selects, at the start of the block; where
no group can be selected, a kernel is loaded from outside (log 1). -/
def State.withFetchWord (s : State) (nbits w : Nat) : State :=
  let s0 := { s with agenda := [] }
  let put (s : State) (gi : Nat) : State := s.modGroup gi fun g =>
    { g with pc := BitVec.ofNat 64 (g.pc.toNat / 32 * 32), redo := [], fetched := some (g.pc.toNat / 32, leBytes 32 (w % 2 ^ nbits)) }
  match s0.pickAny with
  | some x => put s0 x.1
  | none => put s0.loaded 0

end Sys2Proof.Machine
end

