-- ==== Sys2Proof/Safety.lean ====
section
/-! DEFINITION. What counts as a safe run, and when an instruction form has its own effect: the terms in which the statements
speak. -/

namespace Sys2Proof

/-- The states that n steps lead through, the first included; the run ends where a step stops. -/
def trace (s : Machine.State) : Nat → List Machine.State
  | 0 => [s]
  | n + 1 => s :: match Machine.step s with
    | .next t => trace t n
    | _ => []

/-- No step of a run of n steps stops. -/
def runsSafely (s : Machine.State) : Nat → Prop
  | 0 => True
  | n + 1 => match Machine.step s with
    | .next t => runsSafely t n
    | _ => False

end Sys2Proof

namespace Sys2Proof.Machine

/-- A form at its issue by the group that the state names. -/
def State.iss (s : State) (g : Group) (opc sub : Nat) (e : Enc) : Iss := { gi := s.cur, g := g, opc := opc, sub := sub, e := e }

/-- No reason keeps a form from issuing in this cycle, and no engine fault is due (spec 01 R43, 10 R249 item 6). -/
def Iss.issues (x : Iss) (s : State) : Bool := stallWhy x s = 0 && x.g.due.isEmpty

/-- The form is legal where it stands (spec 06 R175, R176). -/
def Iss.legal (x : Iss) (s : State) : Bool := (firstWhy (issueWhy x s)).isNone

/-- The form has its own effect: it issues, it is legal, some lane qualifies or its guard holds (spec 01 R17, R21), and no source
that it reads is marked (02 R59). -/
def Iss.clear (x : Iss) (s : State) : Bool := x.issues s && x.legal s && x.runs && (uninit x).isNone

/-- The state after a form that completes at the next address, from the state that its effect leaves: the group goes on, and the
issue is counted (spec 02 R60, 19 R343). -/
def Iss.completed (x : Iss) (s' : State) (out : LatchVal) : State :=
  (s'.modGroup x.gi fun g => g.advance x out s'.cycle).issuedBy x x.pmcWritten

/-- The state after a form that has set the group's PC: it ends a chain (spec 02 R60). -/
def Iss.left (x : Iss) (s' : State) : State :=
  (s'.modGroup x.gi fun g => { g with chain := none, since := s'.cycle }).issuedBy x x.pmcWritten

/-- The state after a form at which the group waits (spec 01 R43). -/
def Iss.stays (x : Iss) (s' : State) : State := s'.issuedBy x x.pmcWritten

/-- The state after a form that traps (spec 19 R329). -/
def Iss.trapped (x : Iss) (s' : State) (code reason : Nat) (xval : W64) : State :=
  (s'.takeTrap x.gi x.e.ch code reason xval none).issuedBy x none

/-- The state after a form whose result goes to its destination in every lane that it writes: val gives the result of a lane, as
64 bits of which a form that is not wide delivers the low 32 (spec 01 R17, 06 R162). -/
def Iss.delivered (x : Iss) (s : State) (wide : Bool) (val : Nat → W64) : State :=
  x.completed (s.setGroup x.gi (x.deliver wide val).1) (x.deliver wide val).2

end Sys2Proof.Machine
end

