-- ==== Sys2Proof/WellFormed.lean ====
section
/-! DEFINITION. Which instructions are well formed: those that some word stands for and no encoding rule of spec 06 and 07 makes
ILLEGAL. -/

namespace Sys2Proof

/-- A source that stands for its own code: a reserved code is none of those that spec 06 R158 gives a meaning. -/
def Src.canonical (a : Src) : Bool := Src.ofCode a.toCode = a

/-- A destination that stands for its own code (spec 06 R161). -/
def Dst.canonical (d : Dst) : Bool := Dst.ofCode d.toCode = d

/-- Fields that stand for their own codes. -/
def Enc.canonical (e : Enc) : Bool :=
  e.dst.canonical && e.sa.canonical && e.sb.canonical && (match e.ext with
    | .ctl sc _ => sc.canonical
    | _ => true)

/-- An instruction that is the one its fields choose among the rows of its OPC: BLEN by its destination (spec 09 R231), WAITC by
its SC bit (06 R169), a reserved OPC by its number (07 R178). -/
def Instr.canonical (i : Instr) : Bool :=
  (i.code.all fun c => c.2.2.canonical) && (match i with
    | .blenTag e => e.dst.isScalar
    | .blenResize e => !e.dst.isScalar
    | .waitc e => !e.wsc
    | .waitcScFence e => e.wsc
    | .reservedOpc w => reservedOpcode (w.extractLsb' 2 8).toNat
    | _ => true)

/-- An instruction that a word stands for, with no ILLEGAL reason in its encoding (spec 06 R153 to R176). What depends on the
group (chain position, register count, values) is checked at issue. -/
def WellFormed (i : Instr) : Bool := i.canonical && (Machine.firstWhy (Machine.instrWhy i)).isNone

/-- An instruction that has words: every form, but no event of the device. -/
def Instr.hasWords (i : Instr) : Bool := (encode i).isSome

end Sys2Proof
end

