-- ==== Sys2Proof/Certificates/Slice0/Obligations.lean ====
section
/-! DEFINITION. The statements for the provers. -/

namespace Sys2Proof.Claims

open Sys2Proof.Machine

/-- Wherever a form has its own effect (it issues, it is legal, its guard holds or some lane qualifies, and no source that it reads
is marked), exec answers the state that r gives. -/
def Does (mk : Enc → Instr) (opc sub : Nat) (r : Iss → State → State) : Prop :=
  ∀ (e : Enc) (s : State) (g : Group), s.groups[s.cur]? = some g → (s.iss g opc sub e).clear s = true →
    exec (mk e) s = .next (r (s.iss g opc sub e) s)

/-- The same, wherever p holds too. -/
def DoesIf (mk : Enc → Instr) (opc sub : Nat) (p : Iss → State → Prop) (r : Iss → State → State) : Prop :=
  ∀ (e : Enc) (s : State) (g : Group), s.groups[s.cur]? = some g → (s.iss g opc sub e).clear s = true →
    p (s.iss g opc sub e) s → exec (mk e) s = .next (r (s.iss g opc sub e) s)

/-- Every form with a first word, at its issue by the group that the state names. -/
def EveryForm (p : Instr → Iss → State → Group → Prop) : Prop :=
  ∀ (i : Instr) (opc sub : Nat) (e : Enc) (s : State) (g : Group), i.code = some (opc, sub, e) → s.groups[s.cur]? = some g →
    p i (s.iss g opc sub e) s g

/-- The fields of a form without guard, chain bit and NW. -/
def unguarded (u : Bool) (dst : Dst) (sa sb : Src) (mod : BitVec 12) (ext : Ext) : Enc :=
  { pg := 63, pn := false, ch := false, nw := false, u := u, dst := dst, sa := sa, sb := sb, mod := mod, ext := ext }

/-- Byte memories in their canonical form, and the key tags of lines in theirs. -/
def canonical (s : State) : Prop :=
  Memory.wf s.mem = true ∧ Memory.wf s.hostMem = true ∧ s.keyTags.Pairwise fun a b => a.1 < b.1

/-- The memories of teams, pre-empted teams and groups in canonical form. -/
def canonicalTeams (s : State) : Prop :=
  (∀ t ∈ s.teams, ∀ o : Bool, Memory.wf (t.half o).cells = true ∧ Memory.wf (t.half o).boomCells = true)
  ∧ (∀ r ∈ s.grids, ∀ p ∈ r.pre, Memory.wf p.boomEven = true ∧ Memory.wf p.boomOdd = true)
  ∧ ∀ g ∈ s.groups, Memory.wf g.acc = true

end Sys2Proof.Claims

open Sys2Proof Sys2Proof.Machine Sys2Proof.Claims

/-- The registers at State.reset: with the values that the specification gives, but that PECMD.OP at 0 is the model's choice (log 7), that
REGIONS, whose reset is Trained, is 0 until bring-up has trained (log 8), and that the specification gives the last-sampled slots their
255 only when EN rises (21 R385; log 7). -/
def Sys2Proof.Claims.ResetRegisters : Prop :=
  let s := State.reset
  (s.lqbase = 0 ∧ s.frbase = 0 ∧ s.frtail = 0 ∧ s.frhead = 0 ∧ s.tlbDone = true ∧ s.regions = 0 ∧ s.memwin = 0
    ∧ s.tokcfg = 0x6666 ∧ s.mapthr = 0x1000 ∧ s.ptpcfg = 0x808000)
  ∧ (s.pecmd.op = 0 ∧ s.keyOp = 0 ∧ s.keyStatus = 0 ∧ s.bringState = 0 ∧ s.bringStep = 0 ∧ s.bringFail = 0)
  ∧ (s.reelen0 = 0xFFFFFFFFFFFFFFFF ∧ s.reelen1 = 0xFFFFFFFFFFFFFFFF ∧ s.slateLost = 0)
  ∧ (s.cores.length = 144 ∧ ∀ c ∈ s.cores, c.bankrole = 0xAAAA555500000000 ∧ c.bankauto = 0x00FF0000
      ∧ c.smp.period = 16 ∧ c.smp.en = false ∧ c.smp.last = [255, 255, 255, 255])
  ∧ (s.rings.length = 148 ∧ ∀ r ∈ s.rings, r.recs = [] ∧ r.frozen = false ∧ r.lost = 0)
  ∧ (s.keys = List.replicate 64 none ∧ s.groups = [] ∧ s.teams = [] ∧ s.grids = [] ∧ s.cue.owner = none)

/-- Reset memory lists nothing, which is its canonical form. -/
def Sys2Proof.Claims.ResetMemory : Prop :=
  State.reset.mem = [] ∧ State.reset.hostMem = [] ∧ Memory.wf State.reset.mem = true ∧ Memory.wf State.reset.hostMem = true

/-- The invariant of memory: every step keeps device memory, host memory and the key tags of lines in canonical form, so that equal
memories are equal data. -/
def Obligations.StepKeepsMemory : Prop := ∀ s t : State, canonical s → step s = .next t → canonical t

/-- A step in which a group has its turn, by the device's choice, because the agenda lets time pass while a quadrant can still issue, or as
the agenda lays down: the selected group, once it holds its fetch block, issues the instruction that the decoder reads there, and no time
passes. A group that a restore gave instructions to issue again issues those first (redo; spec 19 R338). At its turn a group that was to
try again waits no longer (atTurn; log 2); of any other the state names the group, and nothing else changes. -/
def Sys2Proof.Claims.StepIssuesDecoded : Prop :=
  (∀ (s : State) (gi : Nat) (g : Group) (rest : List Move) (n : Nat) (i : Instr),
    ((s.agenda = [] ∧ s.choice = .issue gi) ∨ (s.agenda = .elapse n :: rest ∧ s.dueMove = none ∧ s.pickAny.map Prod.fst = some gi)) →
    (s.atTurn gi).groups[gi]? = some g → g.redo = [] →
    (g.hasBlock = true → decodeBytes g.instrBytes = .ok i → step s = exec i (s.atTurn gi))
    ∧ ∀ (s1 : State) (h : Group), g.hasBlock = false → (s.atTurn gi).fetchBlock gi = (s1, true) → s1.groups[gi]? = some h →
        h.hasBlock = true → decodeBytes h.instrBytes = .ok i → step s = exec i s1)
  ∧ (∀ (s : State) (c q gi : Nat) (g0 g : Group) (rest : List Move) (i : Instr), s.agenda = .quadrant c q :: rest →
    s.pick c q = some (gi, g0) → (s.atTurn gi).groups[gi]? = some g → g.redo = [] → g.hasBlock = true →
    decodeBytes g.instrBytes = .ok i → step s = exec i (State.atTurn { s with agenda := rest } gi))
  ∧ ∀ (s : State) (gi : Nat) (g : Group), s.groups[gi]? = some g →
    ((∀ r c b, g.wait ≠ .again r c b) → s.atTurn gi = { s with cur := gi })
    ∧ ∀ r c b, g.wait = .again r c b → s.atTurn gi = State.setGroup { s with cur := gi } gi { g with wait := .ready }

/-- A step that makes a move of another agent: the one laid down next, the one that is due, or the device's own choice, with which a cycle
ends. It makes none of its own choice, and lets no time pass, while a quadrant selects a group (spec 01 R45). -/
def Sys2Proof.Claims.StepMakesMove : Prop :=
  (∀ (s : State) (i : Instr) (a : Input) (rest : List Move), s.agenda = .event i a :: rest → encode i = none →
    step s = exec i { s with agenda := rest, input := a })
  ∧ (∀ (s : State) (m : OwnMove) (n : Nat) (rest : List Move), (s.agenda = [] ∨ s.agenda = .elapse n :: rest) →
    s.dueMove = some m → step s = exec m.1 { s with input := m.2 })
  ∧ (∀ (s t : State) (m : OwnMove), s.agenda = [] → s.choice = .own m → exec m.1 { s with input := m.2 } = .next t →
    step s = .next (t.elapse 1))
  ∧ ∀ s : State, ((∃ m, s.choice = .own m) ∨ ∃ n, s.choice = .idle n) → ∀ c q, s.pick c q = none

/-- A few words written out from the encoding rules decode to the instructions that they stand for. -/
def Obligations.WordsDecode : Prop :=
  decode 0x003F2004 = .ok (.nop (unguarded true (.v 0) (.v 0) (.v 0) 0 .none))
  ∧ decode 0x2006_1005_023F_0288 = .ok (.mmul (unguarded false (.v 4) (.v 5) (.int 4) 0x200 .none))
  ∧ decode 0x00000014_0007_0129_943F_2459 = .ok (.csrxSet (unguarded true (.s 40) (.s 41) .lit 0 (.lit 0x14)))
  ∧ decode 0x0446_0100_013F_029C = .ok (.ldb (unguarded false (.v 2) (.s 0) (.int 0) 0x044 .none))

/-- Encode and decode agree: every well-formed instruction that has words is the one that the decoder reads from them, with every
operand at every value. -/
def Obligations.DecodeEncode : Prop :=
  ∀ (i : Instr) (w : BitVec 256), WellFormed i = true → encode i = some w → decode w = .ok i

/-- What the decoder accepts is made of the bits that it was given: the encoder returns them, as far as the instruction's length
reaches (64 bits for a reserved OPC). -/
def Obligations.EncodeDecode : Prop :=
  ∀ (w : BitVec 256) (i : Instr), decode w = .ok i →
    ∃ v : BitVec 256, encode i = some v ∧
      v.toNat = w.toNat % 2 ^ (if reservedOpcode (w.extractLsb' 2 8).toNat then 64 else 8 * ilen w)

/-- Before a form has its own effect: what holds it back leaves the state alone; then an engine fault that is due is taken; then an
illegal form traps, whatever its guard; a form that no lane runs only advances, except that a CUEPOP ends the group's task (spec 05
R145); and a marked source traps. -/
def Sys2Proof.Claims.FormWaitsOrTraps : Prop :=
  EveryForm fun i x s g =>
    (stallWhy x s ≠ 0 → exec i s = .next s)
    ∧ (∀ d ds, stallWhy x s = 0 → g.due = d :: ds →
        exec i s = .next ((State.takeTrap (s.modGroup s.cur fun h => { h with due := h.due.drop 1 }) s.cur x.e.ch 0x04
          (d.kind + 0x80) d.addr none).issuedBy x none))
    ∧ (∀ c, x.issues s = true → firstWhy (issueWhy x s) = some c →
        exec i s = .next (x.trapped s 0x01 c.1 (BitVec.ofNat 64 (c.1 + 256 * c.2))))
    ∧ (x.issues s = true → x.legal s = true → x.runs = false → exec i s = .next (x.completed
        (if x.opc = 0xD1 then s.modGroup s.cur fun h => { h with task := false } else s) x.idleOut))
    ∧ ∀ r, x.issues s = true → x.legal s = true → x.runs = true → uninit x = some r →
        exec i s = .next (x.trapped s 0x02 0 (BitVec.ofNat 64 r))

/-- The same for a loop nest, which has no guard and no destination. -/
def Sys2Proof.Claims.NestWaitsOrTraps : Prop :=
  ∀ (e : NestEnc) (s : State) (g : Group), s.groups[s.cur]? = some g →
    (nestStall s.cur g e s ≠ 0 → exec (.lnest e) s = .next s)
    ∧ (∀ d ds, nestStall s.cur g e s = 0 → g.due = d :: ds →
        exec (.lnest e) s = .next ((State.takeTrap (s.modGroup s.cur fun h => { h with due := h.due.drop 1 }) s.cur false 0x04
          (d.kind + 0x80) d.addr none).issuedNest s.cur g))
    ∧ ∀ c, nestStall s.cur g e s = 0 → g.due = [] → firstWhy (nestIssueWhy g e) = some c →
        exec (.lnest e) s
          = .next ((s.takeTrap s.cur false 0x01 c.1 (BitVec.ofNat 64 (c.1 + 256 * c.2)) none).issuedNest s.cur g)

/-- Of several ILLEGAL reasons the one with the lowest code is reported; among fields of one code, the lowest bit (the latter is the
model's choice, log 12). -/
def Obligations.FirstReason : Prop :=
  ∀ ws : List Why,
    (firstWhy ws = none ↔ ws = [])
    ∧ ∀ c, firstWhy ws = some c → c ∈ ws ∧ ∀ d ∈ ws, c.1 < d.1 ∨ (c.1 = d.1 ∧ c.2 ≤ d.2)

/-- A word with a reserved OPC, which the decoder gives back whole, traps ILLEGAL reason 0x04, or a lower reason of its address. -/
def Sys2Proof.Claims.ReservedOpcTraps : Prop :=
  ∀ (w : W64) (s : State) (g : Group), s.groups[s.cur]? = some g → g.due = [] → pcWhy g.pc (ilen (w.setWidth 256)) = [] →
    exec (.reservedOpc w) s = .next (((s.takeTrap s.cur (w.getLsbD 15) 0x01 0x04 0x204 none).countIssue s.cur g).noteIssued
      s.cur g (g.width = 64 && !w.getLsbD 13) none)

/-- A word that the decoder refuses traps at its issue: a reserved SUB with reason 0x05, a length that its OPC excludes with reason
0x06, or a lower reason of its address. A fault of an engine operation that is due goes before it (spec 10 R249). A word of LNEST's opcode
has no chain bit. -/
def Sys2Proof.Claims.RefusedWordTraps : Prop :=
  ∀ (s : State) (gi : Nat) (g : Group) (r : Reject), s.agenda = [] → s.choice = .issue gi → (s.atTurn gi).groups[gi]? = some g →
    g.redo = [] → g.hasBlock = true → decodeBytes g.instrBytes = .error r →
    let w := BitVec.ofNat 256 (leNat g.instrBytes)
    let ch := w.extractLsb' 2 8 != 0xCB && w.getLsbD 15
    let ends (t : State) : State := (t.countIssue gi g).noteIssued gi g false none
    (g.due = [] → pcWhy g.pc (ilen w) = [] →
      step s = .next (ends (State.takeTrap (s.atTurn gi) gi ch 0x01
        (match r with | .reservedSub => 0x05 | .badLength => 0x06)
        (match r with | .reservedSub => 0xA05 | .badLength => 0x06) none)))
    ∧ ∀ d ds, g.due = d :: ds → step s = .next (ends (State.takeTrap ((s.atTurn gi).modGroup gi fun h => { h with due := h.due.drop 1 }) gi
        ch 0x04 (d.kind + 0x80) d.addr none))

/-- A synchronous trap below trap level, with a handler: the registers it writes, and what it leaves as it stands. -/
def Sys2Proof.Claims.TrapEntry : Prop :=
  ∀ (s : State) (gi : Nat) (g : Group) (ch : Bool) (code reason : Nat) (xval : W64) (ret : Option W64),
    s.groups[gi]? = some g → g.trap = false → g.xbase ≠ 0 → code < 256 → reason < 256 →
    ∃ h, (s.takeTrap gi ch code reason xval ret).groups[gi]? = some h
      ∧ h.xcause = BitVec.ofNat 32 (code + 256 * reason) ∧ h.xval = xval ∧ h.xpc = g.pc
      ∧ h.xrpc = ret.getD ((g.chain.map Chain.first).getD g.pc)
      ∧ h.trap = true ∧ h.inchain = (ret.isNone && (ch || g.chain.isSome)) ∧ h.chfirst = (g.chain.map Chain.first).getD g.pc
      ∧ h.pc = g.xbase ∧ h.chain = none
      ∧ h.exec = g.exec ∧ h.parked = g.parked ∧ h.exited = g.exited ∧ h.stored = g.stored ∧ h.served = g.served
      ∧ h.lanePC = g.lanePC ∧ h.sregs = g.sregs ∧ h.vregs = g.vregs ∧ h.preds = g.preds ∧ h.acc = g.acc ∧ h.ops = g.ops
      ∧ (s.takeTrap gi ch code reason xval ret).mem = s.mem

/-- A trap at trap level, and a trap other than SVC without a handler, are fatal to the context: it and its grids are marked so, and
none of its groups runs. SVC without a handler holds the group for service, with a record of kind 6. -/
def Sys2Proof.Claims.TrapWithoutHandler : Prop :=
  ∀ (s : State) (gi : Nat) (g : Group) (ch : Bool) (code reason : Nat) (xval : W64) (ret : Option W64),
    s.groups[gi]? = some g →
    ((g.trap = true ∨ (g.xbase = 0 ∧ code ≠ 0x0A)) →
      let t := s.takeTrap gi ch code reason xval ret
      (t.ctx g.ctx).fatal = true ∧ (∀ r ∈ t.grids, r.ctx = g.ctx → r.fatal = true)
        ∧ ∀ h ∈ t.groups, h.live = true → h.ctx ≠ g.ctx)
    ∧ (g.trap = false → g.xbase = 0 → code = 0x0A →
      let t := s.takeTrap gi ch code reason xval ret
      (∃ h, t.groups[gi]? = some h ∧ h.wait = .held true ∧ h.pc = g.pc ∧ h.trap = false ∧ h.xcause = g.xcause ∧ h.xval = g.xval
        ∧ h.xpc = g.xpc ∧ h.xrpc = g.xrpc)
      ∧ t.frRecs = s.frRecs ++ [{ seq := none, g := gi, op := none, kind := 6, va := xval, level := 0, ctx := g.ctx,
                                   ch := ch }])

/-- A form that completes at the next address: the group's PC is the address after it, its chain is one member longer or over, the
latches hold what it delivers, and its registers are those that the effect left. -/
def Sys2Proof.Claims.CompletedAdvances : Prop :=
  ∀ (x : Iss) (s' : State) (out : LatchVal) (h : Group), s'.groups[x.gi]? = some h →
    ∃ t, (x.completed s' out).groups[x.gi]? = some t
      ∧ t.pc = (let q := x.g.pc + BitVec.ofNat 64 x.e.ext.bytes; if q.toNat % 32 = 28 then q + 4 else q)
      ∧ t.since = s'.cycle ∧ (x.e.ch = false → t.chain = none)
      ∧ (x.e.ch = true → ∃ c, t.chain = some c ∧ c.pos = x.pos + 1 ∧ c.hist.head? = some out
          ∧ c.first = (x.g.chain.map Chain.first).getD x.g.pc)
      ∧ t.sregs = h.sregs ∧ t.vregs = h.vregs ∧ t.preds = h.preds ∧ t.exec = h.exec ∧ t.acc = h.acc ∧ t.ops = h.ops
      ∧ t.wait = h.wait ∧ t.trap = h.trap ∧ t.xbase = h.xbase ∧ t.prio = h.prio

/-- A result in its destination: a vector register takes it in every lane that is written, with marker state clear and the tag set to
the width, and no other register changes; a scalar register or pair takes it below s126; a predicate takes its low bit in every lane
that is written. With NW = 1, or where the destination is none of these, the group stays as it is. -/
def Obligations.ResultLanes : Prop :=
  ∀ (x : Iss) (wide : Bool) (val : Nat → W64), x.g.width ≤ 64 →
    let h := (x.deliver wide val).1
    let at_ (i : Nat) : Nat := if x.e.u then x.ul else i
    ((x.e.nw = true ∨ ((∀ k : Fin 256, x.e.dst ≠ .v k) ∧ (∀ k : Fin 128, x.e.dst ≠ .s k) ∧ ∀ k : Fin 48, x.e.dst ≠ .p k)) → h = x.g)
    ∧ (x.e.nw = false →
    (∀ (k : Fin 256) (r : VReg), x.e.dst = .v k → x.writers ≠ 0 → x.g.vregs[k.val]? = some r → r.val.length = x.g.width →
      (∀ i < x.g.width, h.v k i = (if x.writers.getLsbD i then (val (at_ i)).setWidth 32 else x.g.v k i)
        ∧ h.marked k i = (x.g.marked k i && !x.writers.getLsbD i))
      ∧ h.tag k = x.g.width
      ∧ (∀ (q : VReg), wide = true → x.g.vregs[k.val + 1]? = some q → q.val.length = x.g.width →
          ∀ i < x.g.width, h.v (k + 1) i = (if x.writers.getLsbD i then (val (at_ i) >>> 32).setWidth 32 else x.g.v (k + 1) i))
      ∧ (∀ j, j ≠ k.val → (wide = true → j ≠ k.val + 1) → h.vregs[j]? = x.g.vregs[j]?)
      ∧ h = { x.g with vregs := h.vregs })
    ∧ (∀ k : Fin 128, x.e.dst = .s k → k.val < 126 → (wide = true → k.val < 125) → x.g.sregs.length = 128 →
      let r := val (if x.e.u then x.ul else x.readers.headD 0)
      h.s k = r.setWidth 32 ∧ (wide = true → h.s (k + 1) = (r >>> 32).setWidth 32)
      ∧ (∀ j, j ≠ k.val → (wide = true → j ≠ k.val + 1) → h.s j = x.g.s j) ∧ h = { x.g with sregs := h.sregs })
    ∧ ∀ k : Fin 48, x.e.dst = .p k → k.val < x.g.preds.length →
      (∀ i < x.g.width, h.p k i = (if x.writers.getLsbD i then (val (at_ i)).getLsbD 0 else x.g.p k i))
      ∧ (∀ j, j ≠ k.val → h.preds[j]? = x.g.preds[j]?) ∧ h = { x.g with preds := h.preds })

/-- The execution mask is the pair s126:s127; of a write to it the bits of parked and exited lanes, and those at or above the width,
are ignored. -/
def Sys2Proof.Claims.ExecWrites : Prop :=
  ∀ (g : Group) (w : W64) (v : W32), g.width ≤ 64 → g.exec &&& ~~~g.running = 0 →
    (∀ i, g.running.getLsbD i = (decide (i < g.width) && !g.parked.getLsbD i && !g.exited.getLsbD i))
    ∧ g.s2 126 = g.exec
    ∧ (g.setS2 126 w).exec = w &&& g.running
    ∧ (g.setS 126 v).exec = ((g.exec >>> 32 <<< 32) ||| v.setWidth 64) &&& g.running
    ∧ (g.setS 127 v).exec = ((g.exec &&& 0xFFFFFFFF) ||| (v.setWidth 64 <<< 32)) &&& g.running
    ∧ g.setS2 126 w = { g with exec := (g.setS2 126 w).exec }

/-- The switch with resume address P and candidates C: every running lane is parked at P with its exec bit and served bit 1; of the
candidates owed a turn (all of them where none is) those at the lowest recorded PC run, with their stored exec bits and served bit
0; the group goes there with YC 0. -/
def Obligations.Switch : Prop :=
  ∀ (g : Group) (p : W64) (c : Mask), g.width ≤ 64 → g.lanePC.length = g.width →
    let h := g.switch p c
    let run := g.running
    let pcs (i : Nat) : W64 := if run.getLsbD i then p else (g.lanePC[i]?).getD 0
    let others : Mask := c &&& g.parked &&& ~~~run
    let cand : Mask := if others = 0 then run else others
    let srv : Mask := g.served ||| run
    let owed (i : Nat) : Bool := decide (i < g.width) && cand.getLsbD i && (!srv.getLsbD i || (cand &&& ~~~srv = 0))
    (∃ i, owed i = true) →
    (∃ i, owed i = true ∧ h.pc = pcs i) ∧ (∀ i, owed i = true → h.pc.toNat ≤ (pcs i).toNat)
    ∧ h.yc = 0
    ∧ ∀ i < g.width,
        let up : Bool := cand.getLsbD i && pcs i = h.pc
        (h.lanePC[i]? = some (pcs i))
        ∧ h.parked.getLsbD i = ((g.parked.getLsbD i || run.getLsbD i) && !up)
        ∧ h.exec.getLsbD i = (up && (if run.getLsbD i then g.exec.getLsbD i else g.stored.getLsbD i))
        ∧ (h.parked.getLsbD i = true →
            h.stored.getLsbD i = (if run.getLsbD i then g.exec.getLsbD i else g.stored.getLsbD i)
            ∧ h.served.getLsbD i = (srv.getLsbD i && !(cand.getLsbD i && (cand &&& ~~~srv = 0))))
        ∧ (up = true → h.served.getLsbD i = false)

/-- The group that a quadrant selects in a cycle whose slot is free, where no group of it holds a chain: a ready one, and no ready one of
the quadrant stands before it: trap level, then an age of 2,048 cycles, then PRIO; then the greater age; then the lower slot. It
selects one where any is ready. Where a ready group holds the quadrant's chain (of several open chains one at trap level before any
other), it is selected as long as each other group at trap level still gets one slot in four, counted with the cycles that the chain's
next member takes; where a ready one would not, one at trap level is. Where a group that holds a chain waits, no group that is not at
trap level is selected, for however long (log 2, the model's choice against R45). None is where the slot is taken: by an issue of this
cycle, or by the second pass of one (spec 01 R16). -/
def Obligations.SelectionOrder : Prop :=
  ∀ (s : State) (core quad gi : Nat) (g : Group),
    let age (k : Group) : Nat := if k.stalled then 0 else s.cycle - k.since
    let last (k : Nat) (h : Group) : Bool := !h.stalled &&
      (((s.cores[core]?).bind fun c => (c.issued[quad]?).join).any fun i => i.late.contains (k, h.since))
    let waited (k : Nat) (h : Group) : Nat := age h + if last k h then 0 else 1
    let unchained : Prop := ∀ h ∈ s.groups, h.core = core → h.quad = quad → h.active = true → h.atIssue = true → h.chain = none
    (s.pick core quad = some (gi, g) → unchained →
      s.groups[gi]? = some g ∧ g.core = core ∧ g.quad = quad ∧ s.ready gi g = true
      ∧ ∀ (gj : Nat) (h : Group), s.groups[gj]? = some h → h.core = core → h.quad = quad → s.ready gj h = true →
          let rank (k : Group) : Nat := if k.trap then 0 else if 2048 ≤ age k then 1 else 5 - k.prio.toNat
          rank g < rank h ∨ (rank g = rank h ∧ (age h < age g ∨ (age h = age g ∧ g.slot ≤ h.slot))))
    ∧ ((s.attempted core = true ∨ (s.issuing core quad).isSome = true) → s.pick core quad = none)
    ∧ (s.attempted core = false → s.issuing core quad = none → unchained → s.groups[gi]? = some g → g.core = core →
      g.quad = quad → s.ready gi g = true → (s.pick core quad).isSome = true)
    ∧ (s.attempted core = false → s.issuing core quad = none → s.groups[gi]? = some g → g.core = core → g.quad = quad →
      s.ready gi g = true → g.chain.isSome = true →
      (∀ (gj : Nat) (h : Group), s.groups[gj]? = some h → h.core = core → h.quad = quad → h.active = true → h.atIssue = true →
        (h.chain.isSome = true → gj = gi ∨ (g.trap = true ∧ h.trap = false))
          ∧ (h.trap = true → gj ≠ gi → waited gj h + g.slotCycles ≤ 4)) →
      s.pick core quad = some (gi, g))
    ∧ (s.attempted core = false → s.issuing core quad = none → s.groups[gi]? = some g → g.core = core → g.quad = quad →
      g.active = true → g.atIssue = true → g.chain.isSome = true →
      (∀ (gj : Nat) (h : Group), s.groups[gj]? = some h → h.core = core → h.quad = quad → h.active = true → h.atIssue = true →
        h.chain.isSome = true → gj = gi) →
      ∀ (gj : Nat) (h : Group), s.groups[gj]? = some h → h.core = core → h.quad = quad → s.ready gj h = true → h.trap = true →
        gj ≠ gi → 5 ≤ waited gj h + g.slotCycles → ∃ k t, s.pick core quad = some (k, t) ∧ k ≠ gi ∧ t.trap = true)
    ∧ (s.groups[gi]? = some g → g.core = core → g.quad = quad → g.active = true → g.atIssue = true → g.chain.isSome = true →
      s.ready gi g = false →
      (∀ (gj : Nat) (h : Group), s.groups[gj]? = some h → h.core = core → h.quad = quad → s.ready gj h = true →
        h.trap = false ∧ h.chain = none) →
      s.pick core quad = none)
    ∧ ∀ i : Issued, ((s.cores[core]?).bind fun c => (c.issued[quad]?).join) = some i →
        s.issuing core quad = (if i.at_ = s.cycle ∨ (i.two = true ∧ i.at_ + 1 = s.cycle) then some i else none)

/-- The result step of integer arithmetic: without SAT the result is x modulo 2^N; with SAT it is x clamped to the type's range. -/
def Obligations.IntegerResult : Prop :=
  ∀ (ty : Nat) (x : Int), ty ≤ 7 →
    ((intResult ty false x : Nat) : Int) = x % 2 ^ tyBits ty
    ∧ (∀ p : Nat, p < 2 ^ tyBits ty → intVal ty p = (if tySigned ty && decide (2 ^ (tyBits ty - 1) ≤ p) then (p : Int) - 2 ^ tyBits ty else p))
    ∧ intVal ty (intResult ty true x)
        = max (if tySigned ty then -2 ^ (tyBits ty - 1) else 0)
            (min x (if tySigned ty then 2 ^ (tyBits ty - 1) - 1 else 2 ^ tyBits ty - 1))

namespace Sys2Proof.Claims

/-- The result of a scalar integer form (spec 08 R203): x, from the values of the operands on the lane of R17, after the result
step. -/
def scalarInt (f : Nat → Int → Int → Int) (x : Iss) (s : State) : State :=
  x.delivered s (ty64 x.e.ty) fun _ =>
    BitVec.ofNat 64 (intResult x.e.ty x.e.sat (f x.e.ty (intVal x.e.ty (x.scal x.e.sa)) (intVal x.e.ty (x.scal x.e.sb))))

/-- The result of a scalar form on patterns: width, pattern of SA, pattern of SB. -/
def scalarBits (f : Nat → Nat → Nat → Nat) (x : Iss) (s : State) : State :=
  x.delivered s (ty64 x.e.ty) fun _ => BitVec.ofNat 64 (f (tyBits x.e.ty) (x.scal x.e.sa) (x.scal x.e.sb))

/-- A division: its result lands at its completion, and its destination is held until then (spec 08 R386). -/
def scalarDiv (f : Nat → Int → Int → Int) (x : Iss) (s : State) : State :=
  let r : W64 :=
    BitVec.ofNat 64 (intResult x.e.ty x.e.sat (f x.e.ty (intVal x.e.ty (x.scal x.e.sa)) (intVal x.e.ty (x.scal x.e.sb))))
  let l := x.landing (if ty64 x.e.ty then 2 else 1) fun _ j => (r >>> (32 * j)).setWidth 32
  x.completed (s.addOp x.gi (x.op none .plain l.1 l.2)) .none

/-- The result of an element-wise vector form: each lane's elements from those of the operands (spec 09 R210). -/
def perElement (f : Iss → Nat → Nat → Nat) (x : Iss) (s : State) : State :=
  x.delivered s (tyPair x.opc x.e) fun i =>
    Iss.packResult x.e.ty x.e.pk ((List.range (Iss.elems x.e.ty x.e.pk)).map (f x i))

/-- An element of an operand, as a value of its type. -/
def elInt (x : Iss) (a : Src) (i el : Nat) : Int := intVal x.e.ty (x.el a i el)

/-- The result of a vector integer form: x from the values of the elements, after the result step (spec 09 R214). -/
def vectorInt (f : Nat → Int → Int → Int) : Iss → State → State := perElement fun x i el =>
  intResult x.e.ty x.e.sat (f x.e.ty (elInt x x.e.sa i el) (elInt x x.e.sb i el))

/-- The result of a vector form on patterns: width, pattern of SA, pattern of SB. -/
def vectorBits (f : Nat → Nat → Nat → Nat) : Iss → State → State := perElement fun x i el =>
  f (tyBits x.e.ty) (x.el x.e.sa i el) (x.el x.e.sb i el)

/-- The shift count: the low 32 bits modulo the width. -/
def count (n b : Nat) : Nat := b % 2 ^ 32 % n

/-- A quotient truncated toward zero, all ones for a divisor of 0 (spec 08 R203). -/
def quotient (ty : Nat) (a b : Int) : Int := if b = 0 then (if tySigned ty then -1 else 2 ^ tyBits ty - 1) else a.tdiv b

/-- The remainder of that quotient, the dividend for a divisor of 0. -/
def remainder (a b : Int) : Int := if b = 0 then a else a - b * a.tdiv b

/-- A predicate form: a result for each lane (spec 08 R207). -/
def predicate (f : Iss → Nat → Bool) (x : Iss) (s : State) : State := x.delivered s false fun i => if f x i then 1 else 0

/-- A form with one 64-bit result for the group. -/
def uniform (wide : Bool) (f : Iss → W64) (x : Iss) (s : State) : State := x.delivered s wide fun _ => f x

end Sys2Proof.Claims

/-- The scalar integer forms complete with the results of R203. -/
def Sys2Proof.Claims.ScalarArithmetic : Prop :=
  Does .smov 0x20 0 (scalarBits fun _ a _ => a)
  ∧ Does .sadd 0x21 0 (scalarInt fun _ a b => a + b)
  ∧ Does .ssub 0x22 0 (scalarInt fun _ a b => a - b)
  ∧ Does .smul 0x23 0 (scalarInt fun _ a b => a * b)
  ∧ Does .smulh 0x24 0 (scalarInt fun ty a b => a * b / 2 ^ tyBits ty)
  ∧ Does .sdiv 0x25 0 (scalarDiv quotient)
  ∧ Does .srem 0x26 0 (scalarDiv fun _ a b => remainder a b)
  ∧ Does .sand 0x27 0 (scalarBits fun _ a b => a &&& b)
  ∧ Does .sor 0x28 0 (scalarBits fun _ a b => a ||| b)
  ∧ Does .sxor 0x29 0 (scalarBits fun _ a b => a ^^^ b)
  ∧ Does .sshl 0x2A 0 (scalarBits fun n a b => a * 2 ^ count n b % 2 ^ n)
  ∧ Does .sshr 0x2B 0 (scalarBits fun n a b => a / 2 ^ count n b)
  ∧ Does .ssar 0x2C 0 (scalarBits fun n a b => wrapN (sextN a n / 2 ^ count n b) n)
  ∧ Does .smin 0x2D 0 (scalarInt fun _ a b => min a b)
  ∧ Does .smax 0x2E 0 (scalarInt fun _ a b => max a b)
  ∧ Does .spopc 0x33 0 (scalarBits fun n a _ => ((List.range n).filter a.testBit).length)
  ∧ Does .sclz 0x34 0 (scalarBits fun n a _ => n - (if a % 2 ^ n = 0 then 0 else Nat.log2 (a % 2 ^ n) + 1))

/-- SCMP gives 1 where the condition holds of the two values, SSEL the first source where the third's low word is not 0. -/
def Sys2Proof.Claims.ScalarCompareSelect : Prop :=
  Does .scmp 0x2F 0 (uniform false fun x =>
    let a := intVal x.e.ty (x.scal x.e.sa)
    let b := intVal x.e.ty (x.scal x.e.sb)
    if (x.e.cond = 0 ∧ a = b) ∨ (x.e.cond = 1 ∧ a ≠ b) ∨ (x.e.cond = 2 ∧ a < b) ∨ (x.e.cond = 3 ∧ a ≤ b) ∨ (x.e.cond = 4 ∧ b < a)
      ∨ (x.e.cond = 5 ∧ b ≤ a) then 1 else 0)
  ∧ ∀ (e : Enc) (s : State) (g : Group), s.groups[s.cur]? = some g → (s.iss g 0x30 0 e).clear s = true →
    let x := s.iss g 0x30 0 e
    exec (.ssel e) s = .next (x.delivered s (ty64 e.ty) fun _ =>
      BitVec.ofNat 64 (if x.word e.sc x.ul ≠ 0 then x.scal e.sa else x.scal e.sb))

/-- SBFE and SBFI, from a descriptor f with position f[5:0] and length min(f[14:8], 64). -/
def Obligations.BitFields : Prop :=
  ∀ (e : Enc) (s : State) (g : Group), s.groups[s.cur]? = some g →
    let n := tyBits e.ty
    let pos (f : W32) : Nat := f.toNat % 64
    let len (f : W32) : Nat := min (f.toNat / 256 % 128) 64
    (∀ x, x = s.iss g 0x31 0 e → x.clear s = true →
      exec (.sbfe e) s = .next (x.delivered s (ty64 e.ty) fun _ =>
        let f := x.word e.sb x.ul
        let y : Nat := x.scal e.sa % 2 ^ n / 2 ^ pos f % 2 ^ len f
        BitVec.ofInt n (if tySigned e.ty ∧ 0 < len f ∧ 2 ^ (len f - 1) ≤ y then (y : Int) - 2 ^ len f else y) |>.setWidth 64))
    ∧ ∀ x, x = s.iss g 0x32 0 e → x.clear s = true →
      exec (.sbfi e) s = .next (x.delivered s (ty64 e.ty) fun _ =>
        let f := x.word e.sc x.ul
        let m : BitVec n := BitVec.ofNat n ((2 ^ len f - 1) * 2 ^ pos f)
        ((BitVec.ofNat n (x.scal e.sa) &&& ~~~m) ||| (BitVec.ofNat n (x.scal e.sb * 2 ^ pos f) &&& m)).setWidth 64)

/-- The mask forms complete with the results of R206. -/
def Sys2Proof.Claims.LaneMasks : Prop :=
  Does .mand 0x35 0 (uniform true fun x => x.mask x.e.sa &&& x.mask x.e.sb)
  ∧ Does .mor 0x36 0 (uniform true fun x => x.mask x.e.sa ||| x.mask x.e.sb)
  ∧ Does .mxor 0x37 0 (uniform true fun x => x.mask x.e.sa ^^^ x.mask x.e.sb)
  ∧ Does .mandn 0x38 0 (uniform true fun x => x.mask x.e.sa &&& ~~~x.mask x.e.sb)
  ∧ Does .mpopc 0x39 0 (uniform false fun x => BitVec.ofNat 64 ((List.range 64).filter (x.mask x.e.sa).getLsbD).length)
  ∧ Does .mffs 0x3A 0 (uniform false fun x => BitVec.ofNat 64 (((List.range 64).find? (x.mask x.e.sa).getLsbD).getD 64))
  ∧ Does .mbit 0x3B 0 (uniform false fun x => if (x.mask x.e.sa).getLsbD ((x.word x.e.sb x.ul).toNat % 64) then 1 else 0)

/-- The predicate forms compute a result for each qualifying lane; with U = 1 the result is computed on the lane of R17 and reaches every
active lane. The second part says what the first writes into the destination. -/
def Obligations.Predicates : Prop :=
  Does .pand 0x40 0 (predicate fun x i => x.pred x.e.sa i && x.pred x.e.sb i)
  ∧ Does .por 0x41 0 (predicate fun x i => x.pred x.e.sa i || x.pred x.e.sb i)
  ∧ Does .pxor 0x42 0 (predicate fun x i => x.pred x.e.sa i ^^ x.pred x.e.sb i)
  ∧ Does .pnot 0x43 0 (predicate fun x i => !x.pred x.e.sa i)
  ∧ Does .pmov 0x44 0 (predicate fun x i => x.pred x.e.sa i)
  ∧ ∀ (x : Iss) (s : State) (f : Iss → Nat → Bool) (k : Fin 48), s.groups[x.gi]? = some x.g → x.g.width ≤ 64 →
    x.g.preds.length = 48 → x.e.dst = .p k → x.e.nw = false →
    ∃ h, (predicate f x s).groups[x.gi]? = some h ∧ (∀ j, j ≠ k.val → h.preds[j]? = x.g.preds[j]?) ∧
      ∀ i < x.g.width, h.p k i = if x.e.u then (if x.g.exec.getLsbD i then f x x.ul else x.g.p k i)
        else (if x.g.exec.getLsbD i && x.guard i then f x i else x.g.p k i)

/-- The forms that cross between predicates and masks read all active lanes at once, or give each lane its bit. -/
def Sys2Proof.Claims.PredicatesAndMasks : Prop :=
  Does .ptom 0x45 0 (uniform true fun x => maskOf x.g.width fun i => x.g.exec.getLsbD i && x.pred x.e.sa i)
  ∧ Does .mtop 0x46 0 (predicate fun x i => (x.mask x.e.sa).getLsbD i)
  ∧ (∀ (e : Enc) (s : State) (g : Group), s.groups[s.cur]? = some g → g.width ≤ 64 → g.exec &&& ~~~g.running = 0 →
    (∀ x, x = s.iss g 0x47 0 e → x.clear s = true →
      exec (.pany e) s = .next (x.delivered s false fun _ =>
        if (List.range g.width).any fun i => g.exec.getLsbD i && x.pred e.sa i then 1 else 0))
    ∧ ∀ x, x = s.iss g 0x48 0 e → x.clear s = true →
      exec (.pall e) s = .next (x.delivered s false fun _ =>
        if (List.range g.width).all fun i => !g.exec.getLsbD i || x.pred e.sa i then 1 else 0))

/-- The element-wise integer forms complete with the results of R214. -/
def Sys2Proof.Claims.VectorArithmetic : Prop :=
  Does .vadd 0x51 0 (vectorInt fun _ a b => a + b)
  ∧ Does .vsub 0x52 0 (vectorInt fun _ a b => a - b)
  ∧ Does .vmul 0x55 0 (vectorInt fun _ a b => a * b)
  ∧ Does .vmulh 0x56 0 (vectorInt fun ty a b => a * b / 2 ^ tyBits ty)
  ∧ Does .vabsd 0x59 0 (vectorInt fun _ a b => |a - b|)
  ∧ Does .vand 0x5A 0 (vectorBits fun _ a b => a &&& b)
  ∧ Does .vor 0x5B 0 (vectorBits fun _ a b => a ||| b)
  ∧ Does .vxor 0x5C 0 (vectorBits fun _ a b => a ^^^ b)
  ∧ Does .vnot 0x5D 0 (vectorBits fun n a _ => (2 ^ n - 1) ^^^ a)
  ∧ Does .vshl 0x5E 0 (vectorBits fun n a b => a * 2 ^ count n b % 2 ^ n)
  ∧ Does .vshr 0x5F 0 (vectorBits fun n a b => a / 2 ^ count n b)
  ∧ Does .vsar 0x60 0 (vectorBits fun n a b => wrapN (sextN a n / 2 ^ count n b) n)
  ∧ Does .vrot 0x61 0 (vectorBits fun n a b => (a * 2 ^ count n b + a / 2 ^ (n - count n b)) % 2 ^ n)
  ∧ Does .vmin 0x62 0 (vectorInt fun _ a b => min a b)
  ∧ Does .vmax 0x63 0 (vectorInt fun _ a b => max a b)
  ∧ Does .vclz 0x64 0 (vectorBits fun n a _ => n - (if a % 2 ^ n = 0 then 0 else Nat.log2 (a % 2 ^ n) + 1))
  ∧ Does .vpopc 0x65 0 (vectorBits fun n a _ => ((List.range n).filter a.testBit).length)
  ∧ Does .vmad 0x57 0 (perElement fun x i el =>
      intResult x.e.ty false (elInt x x.e.sa i el * elInt x x.e.sb i el + elInt x x.e.sc i el))
  ∧ Does .vbfe 0x66 0 (perElement fun x i el => fieldExtract x.e.ty (tyBits x.e.ty) (x.el x.e.sa i el) (x.word x.e.sb i))
  ∧ Does .vbfi 0x67 0 (perElement fun x i el =>
      fieldInsert (tyBits x.e.ty) (x.el x.e.sa i el) (x.el x.e.sb i el) (x.word x.e.sc i))
  ∧ Does .vcmp 0x68 0 fun x s => x.delivered s false fun i =>
      if condInt x.e.cond (elInt x x.e.sa i 0) (elInt x x.e.sb i 0) then 1 else 0

/-- VMADW: the 32-bit values of a and b under the type's signedness, and the pair c; the pair takes a × b + c modulo 2^64. -/
def Obligations.WideMultiplyAdd : Prop :=
  DoesIf .vmadw 0x58 0 (fun x _ => x.e.ty = 6 ∨ x.e.ty = 7) fun x s => x.delivered s true fun i =>
    let val (a : Src) : Int := if tySigned x.e.ty then (x.word a i).toInt else (x.word a i).toNat
    BitVec.ofInt 64 (val x.e.sa * val x.e.sb) + x.pair x.e.sc i (tySigned x.e.ty)

/-- VADDC and VSUBB: the result in the destination, and the carry or borrow in p47 in every lane that is written, whatever NW is. -/
def Sys2Proof.Claims.CarryChain : Prop :=
  ∀ (e : Enc) (s : State) (g : Group) (sub : Bool), s.groups[s.cur]? = some g →
    let x := s.iss g (if sub then 0x54 else 0x53) 0 e
    let n := tyBits e.ty
    let r (i : Nat) : Int := if sub then (x.el e.sa i 0 : Int) - x.el e.sb i 0 - (if g.p 47 i then 1 else 0)
      else (x.el e.sa i 0 : Int) + x.el e.sb i 0 + (if g.p 47 i then 1 else 0)
    let d := x.deliver (ty64 e.ty) fun i => BitVec.ofInt n (r i) |>.setWidth 64
    x.clear s = true →
      exec (if sub then .vsubb e else .vaddc e) s = .next (x.completed
        (s.setGroup s.cur (d.1.setP 47 x.writers (maskOf g.width fun i0 =>
          let i := if e.u then x.ul else i0
          if sub then r i < 0 else 2 ^ n ≤ r i))) d.2)

/-- VMOV passes patterns unchanged. Into a vector register the marker state of each register written is that of the source in every
lane written (a source that is no vector register has none). -/
def Sys2Proof.Claims.VectorMove : Prop :=
  ∀ (e : Enc) (s : State) (g : Group), s.groups[s.cur]? = some g →
    let x := s.iss g 0x50 0 e
    let two := tyPair 0x50 e
    let d := x.deliver two fun i => Iss.packResult e.ty e.pk ((List.range (Iss.elems e.ty e.pk)).map fun el => x.el e.sa i el)
    x.clear s = true →
      ∃ h, exec (.vmov e) s = .next (x.completed (s.setGroup s.cur h) d.2)
        ∧ (∀ k i, h.v k i = d.1.v k i) ∧ h.sregs = d.1.sregs ∧ h.preds = d.1.preds ∧ h.exec = d.1.exec
        ∧ (∀ (k a : Fin 256), e.dst = .v k → e.sa = .v a → e.nw = false → g.width ≤ 64 → ∀ j < (if two then 2 else 1),
            k.val + j < g.vregs.length → ∀ i < g.width, x.writers.getLsbD i = true →
            h.marked (k + j) i = g.marked (a + j) (if e.u then x.ul else i))
        ∧ ((∀ a : Fin 256, e.sa ≠ .v a) ∨ (∀ k : Fin 256, e.dst ≠ .v k) → h = d.1)

/-- VSEL takes SA in the lanes where the predicate SC holds and SB elsewhere; a marked source that it selects traps UNINIT where the
destination is no vector register. -/
def Sys2Proof.Claims.VectorSelect : Prop :=
  ∀ (e : Enc) (s : State) (g : Group), s.groups[s.cur]? = some g →
    let x := s.iss g 0x69 0 e
    let src (i : Nat) : Src := if x.pred e.sc i then e.sa else e.sb
    let d := x.deliver (tyPair 0x69 e) fun i =>
      Iss.packResult e.ty e.pk ((List.range (Iss.elems e.ty e.pk)).map fun el => x.el (src i) i el)
    x.clear s = true →
      (∀ r : Nat, (∀ k : Fin 256, e.dst ≠ .v k) → x.selMarked = some r → exec (.vsel e) s = .next (x.trapped s 0x02 0 (BitVec.ofNat 64 r)))
      ∧ (((∃ k : Fin 256, e.dst = .v k) ∨ x.selMarked = none) →
          ∃ h, exec (.vsel e) s = .next (x.completed (s.setGroup s.cur h) d.2)
            ∧ (∀ k i, h.v k i = d.1.v k i) ∧ h.sregs = d.1.sregs ∧ h.preds = d.1.preds ∧ h.exec = d.1.exec
            ∧ ∀ k : Fin 256, e.dst = .v k → e.nw = false → g.width ≤ 64 → ∀ j < (if tyPair 0x69 e then 2 else 1),
                k.val + j < g.vregs.length → ∀ i < g.width, x.writers.getLsbD i = true →
                h.marked (k + j) i = (match src (if e.u then x.ul else i) with
                  | .v a => g.marked (a + j) (if e.u then x.ul else i)
                  | _ => false))

namespace Sys2Proof.Claims

/-- The value of an element of an operand in the format of the form's type. -/
def elVal (x : Iss) (a : Src) (i el : Nat) : Val := decodeF (fmtOf x.e.ty x.e.prec) (x.el a i el)

/-- A float form: its value for each element, rounded once into the type's format under SAT and RM (spec 09 R219). -/
def floatForm (f : Iss → Nat → Nat → Val) : Iss → State → State := perElement fun x i el =>
  encodeV (fmtOf x.e.ty x.e.prec) x.e.sat x.e.rm (f x i el)

/-- A move between lanes (spec 09 R223): each lane written takes what SA holds in lane j i, whatever that lane's state, and in a
vector register its marker state. -/
def MovesLanes (mk : Enc → Instr) (sub opc : Nat) (j : Iss → Nat → Nat) : Prop :=
  ∀ (e : Enc) (s : State) (g : Group), s.groups[s.cur]? = some g → (s.iss g opc sub e).clear s = true →
    let x := s.iss g opc sub e
    let d := x.deliver (ty64 e.ty) fun i => BitVec.ofNat 64 (x.elem e.sa e.ty 0 false (j x i) 0)
    ∃ h, exec (mk e) s = .next (x.completed (s.setGroup s.cur h) d.2)
      ∧ (∀ k i, h.v k i = d.1.v k i) ∧ h.sregs = d.1.sregs ∧ h.preds = d.1.preds ∧ h.exec = d.1.exec
      ∧ ∀ (k a : Fin 256), e.dst = .v k → e.sa = .v a → e.nw = false → g.width ≤ 64 → ∀ w < (if ty64 e.ty then 2 else 1),
          k.val + w < g.vregs.length → ∀ i < g.width, x.writers.getLsbD i = true → h.marked (k + w) i = g.marked (a + w) (j x i)

/-- The combination of two patterns in a reduction: the integer result of f, or the float operation. -/
def both (f : Int → Int → Int) (fl : Iss → Nat → Nat → Nat) (x : Iss) (a b : Nat) : Nat :=
  if tyInt x.e.ty then intResult x.e.ty false (f (intVal x.e.ty a) (intVal x.e.ty b)) else fl x a b

/-- A float sum. -/
def fsum (x : Iss) (a b : Nat) : Nat :=
  let f := fmtOf x.e.ty x.e.prec
  encodeV f false x.e.rm (addV (decodeF f a) (decodeF f b) x.e.rm)

/-- A reduction over the tree of R92: element el of the qualifying lanes. -/
def reduction (f : Iss → Nat → Nat → Nat) (x : Iss) (s : State) : State :=
  x.delivered s (tyPair x.opc x.e) fun _ =>
    Iss.packResult x.e.ty x.e.pk ((List.range (Iss.elems x.e.ty x.e.pk)).map fun el =>
      treeRoot (f x) ((List.range x.g.width).map fun i => if x.qual.getLsbD i then some (x.el x.e.sa i el) else none))

/-- A pattern that a scan reads: a NaN of a float type is quieted (spec 03 R76), and a -0 stays one (log 74, the model's choice). -/
def quieted (x : Iss) (v : Nat) : Nat :=
  let f := fmtOf x.e.ty x.e.prec
  if tyInt x.e.ty ∨ (decodeF f v).isNan = false then v else encodeV f false 0 (decodeF f v)

/-- An inclusive prefix in lane order over the qualifying lanes (spec 09 R225). -/
def scan (f : Iss → Nat → Nat → Nat) : Iss → State → State := perElement fun x i el =>
  match ((List.range (i + 1)).filter fun j => x.qual.getLsbD j).map fun j => x.el x.e.sa j el with
  | [] => 0
  | v :: vs => vs.foldl (f x) (quieted x v)

/-- A group that queues on a rendezvous slot of its team (spec 09 R226). -/
def rendezvous (kind : Iss → RvKind) (x : Iss) (s : State) : State :=
  x.stays ((s.modGroup x.gi fun g => { g with wait := .rv }).modTeam x.g fun t =>
    { t with rv := t.rv ++ [{ g := x.gi, slot := (x.word x.e.sa x.ul).toNat, kind := kind x }] })

/-- A big-number form with a vector destination (spec 09 R229, R230): f gives value and length from the values and lengths of the
operands. A marked limb of an operand traps UNINIT, a result that is too long BIGLEN; else the number is written into the
qualifying lanes, its limb W into the spill word, and the tag is its length. -/
def BigForm (mk : Enc → Instr) (opc : Nat) (two : Bool) (f : Nat → Big → Big → Big) : Prop :=
  ∀ (e : Enc) (s : State) (g : Group), s.groups[s.cur]? = some g → g.width ≤ 64 → (s.iss g opc 0 e).clear s = true →
    let x := s.iss g opc 0 e
    let r := f g.width (s.big x e.sa) (s.big x e.sb)
    let long : Prop := g.width + 1 < r.2 ∨ (r.2 = g.width + 1 ∧ g.spwEn = false)
    (∀ k, x.bigMark (if two then [e.sa, e.sb] else [e.sa]) = some k → exec (mk e) s = .next (x.trapped s 0x02 0 (BitVec.ofNat 64 k)))
    ∧ (x.bigMark (if two then [e.sa, e.sb] else [e.sa]) = none →
        (long → exec (mk e) s = .next (x.trapped s 0x05 0 (BitVec.ofNat 64 r.2)))
        ∧ (¬ long →
          (e.nw = true → exec (mk e) s = .next (x.completed s .none))
          ∧ ∀ k : Fin 256, e.dst = .v k → e.nw = false →
              let t := s.modGroup s.cur fun g => g.setV k x.qual ((List.range g.width).map (limb r.1)) 0 r.2
              exec (mk e) s = .next (x.completed (if r.2 = g.width + 1 then t.setSpill g k (limb r.1 g.width) else t) .none)))

/-- A modular form: x modulo the modulus of PFORM, or in the 128-bit form modulo SC (spec 09 R237, R238). -/
def modular (f : Nat → Int → Int → Int) (x : Iss) (s : State) : State :=
  let pat (a : Src) (i : Nat) : Nat := x.elem a x.e.ty 0 false i 0
  x.delivered s (ty64 x.e.ty) fun i =>
    let v := f (tyBits x.e.ty) (pat x.e.sa i) (pat x.e.sb i)
    BitVec.ofInt 64 (v % if pformOf x.g.pform ≠ 0 then modulusOf x.g.pform else if x.e.ext.lenCode = 2 then (pat x.e.sc i : Int) else 0)

end Sys2Proof.Claims

/-- The float forms complete with the exact value of their operation, rounded once (FSQRT, FRSQ, FDIV and FRCP by their own
rounding of an irrational or unending value). The values of the last four functions are bounded closely, and free only where the
bound leaves their rounding open (log 20). -/
def Sys2Proof.Claims.FloatArithmetic : Prop :=
  Does .fadd 0x70 0 (floatForm fun x i el => addV (elVal x x.e.sa i el) (elVal x x.e.sb i el) x.e.rm)
  ∧ Does .fsub 0x71 0 (floatForm fun x i el => subV (elVal x x.e.sa i el) (elVal x x.e.sb i el) x.e.rm)
  ∧ Does .fmul 0x72 0 (floatForm fun x i el => mulV (elVal x x.e.sa i el) (elVal x x.e.sb i el))
  ∧ Does .ffma 0x73 0 (floatForm fun x i el => fmaV (elVal x x.e.sa i el) (elVal x x.e.sb i el) (elVal x x.e.sc i el) x.e.rm)
  ∧ Does .fmin 0x74 0 (perElement fun x i el => minMaxF (fmtOf x.e.ty x.e.prec) false (x.el x.e.sa i el) (x.el x.e.sb i el))
  ∧ Does .fmax 0x75 0 (perElement fun x i el => minMaxF (fmtOf x.e.ty x.e.prec) true (x.el x.e.sa i el) (x.el x.e.sb i el))
  ∧ Does .fdiv 0x78 0 (perElement fun x i el =>
      divV (fmtOf x.e.ty x.e.prec) x.e.sat x.e.rm (elVal x x.e.sa i el) (elVal x x.e.sb i el))
  ∧ Does .fsqrt 0x79 0 (perElement fun x i el => sqrtV (fmtOf x.e.ty x.e.prec) x.e.sat x.e.rm (elVal x x.e.sa i el))
  ∧ Does .frcp 0x7A 0 (perElement fun x i el =>
      divV (fmtOf x.e.ty x.e.prec) x.e.sat x.e.rm (.fin false 1 0) (elVal x x.e.sa i el))
  ∧ Does .frsq 0x7B 0 (perElement fun x i el => rsqrtV (fmtOf x.e.ty x.e.prec) x.e.sat x.e.rm (elVal x x.e.sa i el))
  ∧ Does .fexp2 0x7C 0 (perElement fun x i el =>
      exp2V x.e.ty (fmtOf x.e.ty x.e.prec) x.e.sat x.e.rm (x.el x.e.sa i el) (elVal x x.e.sa i el))
  ∧ Does .flog2 0x7D 0 (perElement fun x i el =>
      log2V x.e.ty (fmtOf x.e.ty x.e.prec) x.e.sat x.e.rm (x.el x.e.sa i el) (elVal x x.e.sa i el))
  ∧ Does .fsin 0x7E 0 (perElement fun x i el =>
      sinV x.e.ty (fmtOf x.e.ty x.e.prec) x.e.sat x.e.rm (x.el x.e.sa i el) (elVal x x.e.sa i el))
  ∧ Does .fcos 0x7F 0 (perElement fun x i el =>
      cosV x.e.ty (fmtOf x.e.ty x.e.prec) x.e.sat x.e.rm (x.el x.e.sa i el) (elVal x x.e.sa i el))

/-- Comparisons, classes, conversions and scalings of floats. -/
def Sys2Proof.Claims.FloatConversions : Prop :=
  Does .fcmp 0x76 0 (fun x s => x.delivered s false fun i =>
      let f := fmtOf x.e.ty x.e.prec
      let a := decodeF f (x.elem x.e.sa x.e.ty x.e.prec false i 0)
      let b := decodeF f (x.elem x.e.sb x.e.ty x.e.prec false i 0)
      let nan := a.isNan || b.isNan
      if (x.e.cond = 6 ∧ nan = false) ∨ (x.e.cond = 7 ∧ nan = true) ∨ (x.e.cond = 1 ∧ (nan = true ∨ cmpV a b ≠ 0))
        ∨ (nan = false ∧ ((x.e.cond = 0 ∧ cmpV a b = 0) ∨ (x.e.cond = 2 ∧ cmpV a b < 0) ∨ (x.e.cond = 3 ∧ cmpV a b ≤ 0)
          ∨ (x.e.cond = 4 ∧ 0 < cmpV a b) ∨ (x.e.cond = 5 ∧ 0 ≤ cmpV a b))) then 1 else 0)
  ∧ Does .fclass 0x77 0 (fun x s => x.delivered s false fun i =>
      BitVec.ofNat 64 (2 ^ classBit (fmtOf x.e.ty x.e.prec) (x.el x.e.sa i 0)))
  ∧ Does .vcvt 0x6A 0 (perElement fun x i el =>
      convert x.e.sty x.e.sprec x.e.ty x.e.prec x.e.sat x.e.rm (x.elem x.e.sa x.e.sty x.e.sprec x.e.pk i el))
  ∧ Does .fcvt 0x80 0 (perElement fun x i el =>
      convert x.e.sty x.e.sprec x.e.ty x.e.prec x.e.sat x.e.rm (x.elem x.e.sa x.e.sty x.e.sprec x.e.pk i el))
  ∧ Does .frnd 0x81 0 (perElement fun x i el => rndV (fmtOf x.e.ty x.e.prec) x.e.rm (elVal x x.e.sa i el))
  ∧ Does .fscl 0x82 0 (floatForm fun x i el => scaleV (elVal x x.e.sa i el) (x.word x.e.sb i).toInt)

/-- The value of a code of an IEEE format whose sign bit is clear and which is finite. -/
def Sys2Proof.Claims.codeVal (f : Fmt) (c : Nat) : ℚ :=
  match decodeF f c with
  | .fin _ m x => m * (2 : ℚ) ^ x
  | _ => 0

/-- A code r that a positive number q, within the finite range of an IEEE format and with a sign, is rounded to under RM: nearest with
ties to the even code, towards zero, down, up (spec 03 R82, R83). -/
def Sys2Proof.Claims.RoundedTo (f : Fmt) (rm : Nat) (neg : Bool) (q : ℝ) (r : Nat) : Prop :=
  ∃ c, c ≤ f.maxCode ∧ r = (if neg then 2 ^ (f.width - 1) else 0) + c
    ∧ (rm = 0 → ∀ d ≤ f.maxCode, |codeVal f c - q| ≤ |codeVal f d - q| ∧ (|codeVal f d - q| = |codeVal f c - q| → d = c ∨ c % 2 = 0))
    ∧ ((rm = 1 ∨ (rm = 2 ∧ neg = false) ∨ (rm = 3 ∧ neg = true)) → codeVal f c ≤ q ∧ ∀ d ≤ f.maxCode, codeVal f d ≤ q → d ≤ c)
    ∧ ((rm = 2 ∧ neg = true) ∨ (rm = 3 ∧ neg = false) → q ≤ codeVal f c ∧ ∀ d ≤ f.maxCode, q ≤ codeVal f d → c ≤ d)

/-- Every code of f16, bf16, f32 and f64 that is no NaN stands for a value that rounds to that very code, in every rounding mode: a
conversion of a value that the format holds changes nothing. A quotient of finite values that are not 0, within the finite range,
and a square root of a positive one are correctly rounded (spec 09 R219). -/
def Obligations.FloatCodes : Prop :=
  ∀ (ty rm : Nat), 8 ≤ ty → ty ≤ 0x0B → rm < 4 →
    let f := fmtOf ty 0
    (∀ code < 2 ^ f.width, (decodeF f code).isNan = false → encodeV f false rm (decodeF f code) = code)
    ∧ (∀ (sat n k : Bool) (m p : Nat) (x y : Int) (a b : Nat), decodeF f a = .fin n m x → decodeF f b = .fin k p y → m ≠ 0 → p ≠ 0 →
        let q : ℚ := m * (2 : ℚ) ^ x / (p * (2 : ℚ) ^ y)
        q ≤ codeVal f f.maxCode → RoundedTo f rm (n != k) q (divV f sat rm (.fin n m x) (.fin k p y)))
    ∧ ∀ (sat : Bool) (m : Nat) (x : Int) (a : Nat), decodeF f a = .fin false m x → m ≠ 0 →
        RoundedTo f rm false (Real.sqrt (m * (2 : ℝ) ^ x)) (sqrtV f sat rm (.fin false m x))

/-- VSHUF, VBCAST and VROTL move whole lanes: lane i takes that of lane j(i) of R223. -/
def Sys2Proof.Claims.LaneMoves : Prop :=
  MovesLanes .vshufIdx 0 0x83 (fun x i => (x.word x.e.sb i).toNat % x.g.width)
  ∧ MovesLanes .vshufXor 1 0x83 (fun x i => i ^^^ ((x.word x.e.sb i).toNat % x.g.width))
  ∧ MovesLanes .vshufUp 2 0x83 (fun x i => if (x.word x.e.sb i).toNat ≤ i then i - (x.word x.e.sb i).toNat else i)
  ∧ MovesLanes .vshufDown 3 0x83 (fun x i => if i + (x.word x.e.sb i).toNat < x.g.width then i + (x.word x.e.sb i).toNat else i)
  ∧ MovesLanes .vbcast 0 0x84 (fun x _ => (x.word x.e.sb x.ul).toNat % x.g.width)
  ∧ MovesLanes .vrotl 0 0x87 (fun x i => (((i : Int) - (x.word x.e.sb x.ul).toNat) % (x.g.width : Int)).toNat)

/-- VRED and VSCAN combine the qualifying lanes, over the tree of R92 and in lane order. -/
def Sys2Proof.Claims.ReductionsAndScans : Prop :=
  Does .vredAdd 0x85 0 (reduction (both (· + ·) fsum))
  ∧ Does .vredMin 0x85 1 (reduction (both min fun x => minMaxF (fmtOf x.e.ty x.e.prec) false))
  ∧ Does .vredMax 0x85 2 (reduction (both max fun x => minMaxF (fmtOf x.e.ty x.e.prec) true))
  ∧ Does .vredAnd 0x85 3 (reduction fun _ a b => a &&& b)
  ∧ Does .vredOr 0x85 4 (reduction fun _ a b => a ||| b)
  ∧ Does .vredXor 0x85 5 (reduction fun _ a b => a ^^^ b)
  ∧ Does .vscanAdd 0x86 0 (scan (both (· + ·) fsum))
  ∧ Does .vscanMin 0x86 1 (scan (both min fun x => minMaxF (fmtOf x.e.ty x.e.prec) false))
  ∧ Does .vscanMax 0x86 2 (scan (both max fun x => minMaxF (fmtOf x.e.ty x.e.prec) true))
  ∧ Does .vscanAnd 0x86 3 (scan fun _ a b => a &&& b)
  ∧ Does .vscanOr 0x86 4 (scan fun _ a b => a ||| b)
  ∧ Does .vscanXor 0x86 5 (scan fun _ a b => a ^^^ b)

/-- Under an associative operation the tree of R92 gives what combining the lanes that take part in lane order gives. -/
def Sys2Proof.Claims.TreeIsFold : Prop :=
  ∀ (f : Nat → Nat → Nat) (l : List (Option Nat)) (v : Nat) (vs : List Nat), (∀ a b c, f (f a b) c = f a (f b c)) → l.length ≤ 64 →
    l.filterMap id = v :: vs → treeRoot f l = vs.foldl f v

/-- RVSEND and RVRECV queue the group on its team's slot, in arrival order, where it waits: the sender with its register, which
is read at the pairing, the receiver with its qualifying lanes. -/
def Sys2Proof.Claims.RendezvousQueues : Prop :=
  Does .rvsend 0x88 0 (rendezvous fun x => .send (match x.e.sb with | .v k => k.val | _ => 0))
  ∧ Does .rvrecv 0x89 0 (rendezvous fun x => .recv x.qual x.e.dst x.e.nw)

/-- The register big-number forms complete with value and length of R230 and R231. -/
def Sys2Proof.Claims.BigNumbers : Prop :=
  let n32 (b : Big) : Nat := wrapN b.1 32
  let longest (l : Nat) (v : Int) : Big := (v, max l (leastLen v))
  let low (w : Nat) (v : Int) : Int := sextN (wrapN v (32 * w)) (32 * w)
  BigForm .badd 0x90 true (fun _ a b => longest (max a.2 b.2) (a.1 + b.1))
  ∧ BigForm .bsub 0x91 true (fun _ a b => longest (max a.2 b.2) (a.1 - b.1))
  ∧ BigForm .bneg 0x92 false (fun _ a _ => longest a.2 (-a.1))
  ∧ BigForm .bshl 0x94 true (fun _ a b => longest a.2 (a.1 * 2 ^ n32 b))
  ∧ BigForm .bshr 0x95 true (fun _ a b => (a.1 / 2 ^ n32 b, a.2))
  ∧ BigForm .bmull 0x96 true (fun w a b => (low w (a.1 * b.1), w))
  ∧ BigForm .bmulh 0x97 true (fun w a b =>
      let v := (a.1 * b.1 - low w (a.1 * b.1)) / 2 ^ (32 * w)
      (v, leastLen v))
  ∧ BigForm .bmuls 0x98 true (fun _ a b => longest a.2 (a.1 * b.1))
  ∧ BigForm .bnorm 0x9B false (fun _ a _ => (a.1, leastLen a.1))
  ∧ BigForm .blenResize 0x9A true (fun _ a b => (low (n32 b) a.1, n32 b))

/-- BCMP and BLEN with a scalar destination: the sign of the difference, and the tag. -/
def Sys2Proof.Claims.BigCompare : Prop :=
  DoesIf .bcmp 0x93 0 (fun x _ => x.bigMark [x.e.sa, x.e.sb] = none) (fun x s =>
    let a := (s.big x x.e.sa).1
    let b := (s.big x x.e.sb).1
    x.delivered s false fun _ => if a < b then BitVec.allOnes 64 else if a = b then 0 else 1)
  ∧ ∀ (e : Enc) (s : State) (g : Group) (k : Fin 256), s.groups[s.cur]? = some g → (s.iss g 0x9A 0 e).clear s = true →
    e.sa = .v k → (s.iss g 0x9A 0 e).bigMark [e.sa] = none →
    exec (.blenTag e) s = .next ((s.iss g 0x9A 0 e).delivered s false fun _ => BitVec.ofNat 64 (g.tag k))

/-- BDIVQR: quotient truncated toward zero and remainder, which land in the pair when the form completes; a divisor of 0 traps
DIVZERO, one longer than W or a quotient that is too long BIGLEN. -/
def Sys2Proof.Claims.BigDivision : Prop :=
  ∀ (e : Enc) (s : State) (g : Group) (k : Fin 256), s.groups[s.cur]? = some g → (s.iss g 0x99 0 e).clear s = true →
    e.dst = .v k → e.nw = false →
    let x := s.iss g 0x99 0 e
    x.bigMark [e.sa, e.sb] = none →
    let a := s.big x e.sa
    let b := s.big x e.sb
    let q := a.1.tdiv b.1
    let n := max a.2 (leastLen q)
    let long : Prop := g.width + 1 < n ∨ (n = g.width + 1 ∧ g.spwEn = false)
    (b.1 = 0 → exec (.bdivqr e) s = .next (x.trapped s 0x06 0 0))
    ∧ (b.1 ≠ 0 → g.width < b.2 → exec (.bdivqr e) s = .next (x.trapped s 0x05 0 (BitVec.ofNat 64 b.2)))
    ∧ (b.1 ≠ 0 → b.2 ≤ g.width → long → exec (.bdivqr e) s = .next (x.trapped s 0x05 0 (BitVec.ofNat 64 n)))
    ∧ (b.1 ≠ 0 → b.2 ≤ g.width → ¬ long →
        exec (.bdivqr e) s = .next (x.completed (s.addOp s.cur (x.op none .plain
          (x.landBig k q n ++ x.landBig (k + 1) (a.1.tmod b.1) b.2) [.v k, .v (k + 1)])) .none))

/-- A number cut into as many limbs as its length takes is that number; and no limbs hold more than their count. -/
def Obligations.BigNumberLimbs : Prop :=
  (∀ (v : Int) (n : Nat), leastLen v ≤ n → bignum (limbs v n) = v)
  ∧ (∀ ls : List W32, leastLen (bignum ls) ≤ ls.length)
  ∧ ∀ (v : Int) (n : Nat), 0 < n → (leastLen v ≤ n ↔ -2 ^ (32 * n - 1) ≤ v ∧ v < 2 ^ (32 * n - 1))

/-- BSPILL writes the limbs of a register's number and then its header; BFILL reads a limb array into a register and its status into a
scalar register; a header that a reader rejects gives status BADHDR and leaves the register. Accesses of the group that come before
them are performed first (spec 04 R124; log 10). -/
def Sys2Proof.Claims.BigMemory : Prop :=
  ∀ (e : Enc) (s : State) (g : Group), s.groups[s.cur]? = some g →
    (∀ (x : Iss) (k : Fin 256) (s1 : State) (ps : List (Place × Nat)) (s2 : State) (p : Place), x = s.iss g 0x9C 0 e →
      x.clear s = true → e.sb = .v k → (x.word e.sa x.ul).toNat % 16 = 0 →
      let a : W64 := (x.word e.sa x.ul).setWidth 64
      let ls := s.limbsOf g k
      s.placeRange s.cur g false .store .s (a + 16) (4 * ls.length) = (s1, ps, none) →
      s1.resolve s.cur g false .store .s a 16 = (s2, .ok p) →
      let qs := ps ++ [(p, 16)]
      s2.held 0 (devRanges qs) = false →
      let t := (s2.charge 0 (devRanges qs)).settleFor s.cur false qs
      exec (.bspill e) s = .next (x.completed ((splitOver qs (bytesOf (ls ++
        [BitVec.ofNat 32 ls.length, BitVec.ofNat 32 (g.width + 1), if leastLen (bignum ls) = ls.length then 1 else 0, 0]))).foldl
          (fun s q => s.writeAt q.1 (leBytes q.2.1 q.2.2)) t) .none))
    ∧ ∀ (x : Iss) (k : Fin 256) (st : Fin 128) (s1 : State) (p : Place), x = s.iss g 0x9D 0 e → x.clear s = true → e.dst = .v k →
      e.nw = false → e.sb = .s st → (x.word e.sa x.ul).toNat % 16 = 0 →
      let a : W64 := (x.word e.sa x.ul).setWidth 64
      (s.settlePoison s.cur .load).resolve s.cur g false .load .s a 16 = (s1, .ok p) →
      s1.held 0 (devRanges [(p, 16)]) = false →
      let t := (s1.charge 0 (devRanges [(p, 16)])).settleFor s.cur false [(p, 16)]
      let hd := hdrOf (t.readAt p 16)
      let out (s : State) (w : W32) : State := s.modGroup x.gi fun g => g.setS st w
      (hd.bad = true → exec (.bfill e) s = .next (x.completed (out t 0x01) .none))
      ∧ (hd.bad = false → g.tooLong hd.len.toNat = true →
          exec (.bfill e) s = .next (x.trapped t 0x05 0 (BitVec.ofNat 64 hd.len.toNat)))
      ∧ ∀ s2 ps, hd.bad = false → g.tooLong hd.len.toNat = false →
          t.placeRange s.cur g false .load .s (a + 16) (4 * hd.len.toNat) = (s2, ps, none) →
          let u := (s2.settleFor s.cur false ps).charge 0 (devRanges ps)
          exec (.bfill e) s = .next (x.completed
            (out (u.putBig x k (bignum (wordsOf (ps.flatMap fun q => u.readAt q.1 q.2))) hd.len.toNat) 0) .none)

/-- The modular forms complete with canonical residues. -/
def Obligations.ModularArithmetic : Prop :=
  Does .madd 0xA0 0 (modular fun _ a b => a + b)
  ∧ Does .msub 0xA1 0 (modular fun _ a b => a - b)
  ∧ Does .mmul 0xA2 0 (modular fun _ a b => a * b)
  ∧ Does .mred 0xA3 0 (modular fun n a b => b * 2 ^ n + a)

namespace Sys2Proof.Claims

/-- A group that goes to t by a branch at its PC: a backward branch while lanes are parked is a yield point, and every second one
switches (spec 01 R30). -/
def branched (s : State) (gi : Nat) (g : Group) (pc t : W64) : State :=
  if t.toNat ≤ pc.toNat ∧ g.parked ≠ 0 then
    if g.yc.toNat + 1 < 2 then s.setGroup gi { g with pc := t, yc := g.yc + 1 } else s.switch gi g t g.parked
  else s.setGroup gi { g with pc := t }

/-- A direct branch: taken where p holds, and then to the PC plus four times the displacement (spec 06 R170, 08 R193). -/
def branch (p : Iss → Bool) (x : Iss) (s : State) : State :=
  if p x then x.left (branched s x.gi x.g x.g.pc (x.g.pc + BitVec.ofInt 64 x.e.disp)) else x.completed s .none

/-- A call to an address: the link pair takes the address after the call, and the group goes there (spec 08 R193). -/
def called (t : Iss → W64) (x : Iss) (s : State) : State :=
  x.left (s.setGroup x.gi { (x.deliver true fun _ => BitVec.ofNat 64 ((nextPc x.g.pc x.e.ext.bytes).toNat % 2 ^ 57)).1 with pc := t x })

/-- The value of SA on the lane of R17. -/
def valueA (x : Iss) : Nat := (x.word x.e.sa x.ul).toNat

/-- The state after a form that writes the field of its group that f gives, and delivers nothing. -/
def sets (f : Iss → Group → Group) (x : Iss) (s : State) : State := x.completed (s.setGroup x.gi (f x x.g)) .none

/-- A CSR form's new value (spec 08 R201): reserved bits are dropped by the write. -/
def csrWritten (f : W64 → W64 → W64) (x : Iss) (s : State) : State :=
  let c := x.e.csr
  let v := if csrWide c then x.pair x.e.sa x.ul (c = 0x015) else (x.word x.e.sa x.ul).setWidth 64
  if csrRO c then s else s.setCsr x.gi x.g c (f (s.csr x.g c) v)

/-- CSRX: the CSR takes its new value, the destination the old one. -/
def Exchanges (mk : Enc → Instr) (sub : Nat) (f : W64 → W64 → W64) : Prop :=
  ∀ (e : Enc) (s : State) (g h : Group), s.groups[s.cur]? = some g → (s.iss g 0x16 sub e).clear s = true →
    (csrWritten f (s.iss g 0x16 sub e) s).groups[s.cur]? = some h →
    let x := s.iss g 0x16 sub e
    let d := ({ x with g := h } : Iss).deliver (csrWide e.csr) fun _ => s.csr g e.csr
    exec (mk e) s = .next (x.completed ((csrWritten f x s).setGroup s.cur d.1) d.2)

/-- TRAP and SVC: the form completes and enters its trap, with XRPC the address after it (spec 11 R284). -/
def raises (code : Nat) (x : Iss) (s : State) : State :=
  x.left (s.takeTrap x.gi false code 0 ((x.word x.e.sa x.ul).setWidth 64) (some (nextPc x.g.pc x.e.ext.bytes)))

end Sys2Proof.Claims

/-- NOP and YIELD: NOP only advances; YIELD switches with the address after it and all parked lanes as candidates, and only advances
where no lane is parked; a guard on YIELD is illegal. That a YIELD at trap level switches too is log 87. -/
def Obligations.NopAndYield : Prop :=
  Does .nop 0x01 0 (fun x s => x.completed s .none)
  ∧ Does .yield 0x0D 0 (fun x s =>
      if x.g.parked = 0 then x.completed s .none else x.left (s.switch x.gi x.g (nextPc x.g.pc x.e.ext.bytes) x.g.parked))
  ∧ ∀ (e : Enc) (s : State) (g : Group), s.groups[s.cur]? = some g → (s.iss g 0x0D 0 e).issues s = true → e.pg.val ≠ 63 →
      ∃ reason xval, exec (.yield e) s = .next ((s.iss g 0x0D 0 e).trapped s 0x01 reason xval)

/-- EXIT retires the active lanes; masked lanes go on; where only parked lanes remain the group switches; where none does it has
exited. -/
def Sys2Proof.Claims.Exit : Prop :=
  ∀ (e : Enc) (s : State) (g : Group), s.groups[s.cur]? = some g → (s.iss g 0x02 0 e).clear s = true →
    let x := s.iss g 0x02 0 e
    let h : Group := { g with
      exited := g.exited ||| g.exec
      lanePC := (List.range g.lanePC.length).zipWith (fun i q => if g.exec.getLsbD i then g.pc else q) g.lanePC
      exec := 0 }
    (h.running ≠ 0 → exec (.exit e) s = .next (x.completed (s.setGroup s.cur h) .none))
    ∧ (h.running = 0 → h.parked ≠ 0 → exec (.exit e) s = .next (x.left (s.switch s.cur h g.pc h.parked)))
    ∧ (h.running = 0 → h.parked = 0 → exec (.exit e) s = .next (x.left (s.groupGone s.cur h)))

/-- Branches, calls and returns: where they go, what they write, and that a backward branch while lanes are parked is a yield
point. -/
def Sys2Proof.Claims.Branches : Prop :=
  Does .bra 0x03 0 (branch fun _ => true)
  ∧ Does .brz 0x04 0 (branch fun x => valueA x = 0)
  ∧ Does .brnz 0x05 0 (branch fun x => valueA x != 0)
  ∧ Does .call 0x06 0 (called fun x => x.g.pc + BitVec.ofInt 64 x.e.disp)
  ∧ Does .calli 0x07 0 (called fun x => x.pair x.e.sa x.ul)
  ∧ DoesIf .ret 0x08 0 (fun x _ => ∀ i ∈ x.g.inline.head?, x.pair x.e.sa x.ul ≠ nextPc i.at_ 8)
      (fun x s => x.left (s.setGroup x.gi { x.g with pc := x.pair x.e.sa x.ul }))
  ∧ Does .jmpi 0x09 0 (fun x s => x.left (branched s x.gi x.g x.g.pc (x.pair x.e.sa x.ul)))
  ∧ Does .skipz 0x0A 0 (fun x s => if x.g.exec = 0 then
      x.left (s.setGroup x.gi { x.g with pc := x.g.pc + BitVec.ofInt 64 x.e.disp }) else x.completed s .none)

/-- A RET to the address after the CUEPUSH of the inline call under way ends that call: the saved exec is restored, and the called
lanes of the CUEPUSH's handle pair and status register take the null handle and INLINE (code 6). -/
def Sys2Proof.Claims.InlineReturn : Prop :=
  ∀ (e : Enc) (s s1 : State) (g : Group) (i : Inline) (rest : List Inline) (p : Place), s.groups[s.cur]? = some g →
    (s.iss g 0x08 0 e).clear s = true → g.inline = i :: rest → (s.iss g 0x08 0 e).pair e.sa (s.iss g 0x08 0 e).ul = nextPc i.at_ 8 →
    s.resolve s.cur g false .fetch .g i.at_ 8 = (s1, .ok p) →
    let x := s.iss g 0x08 0 e
    let w : BitVec 256 := BitVec.ofNat 256 (leNat (s1.readAt p 8))
    exec (.ret e) s = .next (x.left (s1.modGroup s.cur fun h =>
      { g.inlineReturn i w with pc := nextPc i.at_ 8, pend := h.pend }))
    ∧ (g.inlineReturn i w).exec = i.exec &&& g.running ∧ (g.inlineReturn i w).inline = rest
    ∧ ∀ (k c : Fin 256) (r q z : VReg), (encOf w).dst = .v k → (encOf w).nw = false → (encOf w).sb = .v c →
        c.val ≠ k.val → c.val ≠ k.val + 1 → g.vregs[k.val]? = some r → g.vregs[k.val + 1]? = some q → g.vregs[c.val]? = some z →
        r.val.length = g.width → q.val.length = g.width → z.val.length = g.width →
        ∀ l < g.width, i.lanes.getLsbD l = true → (g.inlineReturn i w).v k l = 0 ∧ (g.inlineReturn i w).v (k + 1) l = 0
          ∧ (g.inlineReturn i w).v c l = stInline

/-- DIVB splits the active lanes on a predicate, whose mask goes to the pair: all taken, the group branches; none taken, it goes on;
else the others are parked after it with served bit 1 and the group branches. -/
def Sys2Proof.Claims.Diverge : Prop :=
  Does .divb 0x0B 0 fun x s =>
    let entry := x.g.exec
    let taken := maskOf x.g.width fun i => entry.getLsbD i && x.pred x.e.sa i
    let g := (x.deliver true fun _ => entry).1
    let t := x.g.pc + BitVec.ofInt 64 x.e.disp
    let others := entry &&& ~~~taken
    if taken = 0 then x.completed (s.setGroup x.gi g) .none
    else if taken = entry then x.left (branched s x.gi g x.g.pc t)
    else
      let h : Group := { g with
        parked := g.parked ||| others
        lanePC := (List.range g.lanePC.length).zipWith
          (fun i q => if others.getLsbD i then nextPc x.g.pc x.e.ext.bytes else q) g.lanePC
        stored := g.stored ||| others
        served := g.served ||| others
        exec := g.exec &&& ~~~others }
      x.left (branched (s.reel g.core 0x09 (some g.ctx) (g.gslot + pcField g.pc)) x.gi h x.g.pc t)

/-- JOIN waits for the lanes of its mask that have not exited: while some of them are parked elsewhere the group switches with them as
candidates; else those parked here run again and exec is the mask. -/
def Sys2Proof.Claims.Join : Prop :=
  Does .join 0x0C 0 fun x s =>
    let g := x.g
    let m := x.pair x.e.sa x.ul &&& allLanes g.width &&& ~~~g.exited
    let here := maskOf g.lanePC.length fun i => (m &&& g.parked).getLsbD i && (g.lanePC[i]?).getD 0 = g.pc
    let waiting := m &&& g.parked &&& ~~~here
    if waiting = 0 then
      x.completed (s.setGroup x.gi { g with
        parked := g.parked &&& ~~~here
        stored := g.stored &&& ~~~here
        served := g.served &&& ~~~here
        exec := m }) .none
    else x.left (s.switch x.gi g g.pc waiting)

/-- BARA raises the group's arrival count, after the accesses that it has issued (spec 08 R197); BAR does too and then waits, as BARW does, until the barrier's phase reaches that count; a
phase is the least arrival count of the team's groups that have not exited. -/
def Obligations.Barriers : Prop :=
  let arrived (x : Iss) (s : State) : State :=
    ((s.settleAll x.gi).modGroup x.gi fun h => { h with arr := h.arr.modify (valueA x) (· + 1) }).advanceBarriers x.g.grid x.g.team
  let waits (x : Iss) (s : State) : State := s.modGroup x.gi fun h =>
    let n := (h.arr[valueA x]?).getD 0
    let done := ((s.teamOf h).bind fun t => t.phase[valueA x]?).getD 0
    if n ≤ done then h else { h with wait := .barrier (valueA x) n }
  Does .bara 0x0F 0 (fun x s => x.completed (arrived x s) .none)
  ∧ Does .bar 0x0E 0 (fun x s => x.completed (waits x (arrived x s)) .none)
  ∧ Does .barw 0x10 0 (fun x s => x.completed (waits x s) .none)
  ∧ ∀ (s : State) (grid team : W32) (ti : Nat) (t : Team) (b : Nat), s.teamIdx grid team = some ti → s.teams[ti]? = some t → b < 16 →
      (∃ h ∈ s.groups, h.live = true ∧ h.grid = grid ∧ h.team = team ∧ h.gone = false) →
      ∃ t' n, (s.advanceBarriers grid team).teams[ti]? = some t' ∧ t'.phase[b]? = some (max ((t.phase[b]?).getD 0) n)
        ∧ (∃ h ∈ s.groups, h.live = true ∧ h.grid = grid ∧ h.team = team ∧ h.gone = false ∧ (h.arr[b]?).getD 0 = n)
        ∧ ∀ h ∈ s.groups, h.live = true → h.grid = grid → h.team = team → h.gone = false → n ≤ (h.arr[b]?).getD 0

/-- SLEEP waits for n cycles, and goes on at once for none; PRIO sets the priority class. -/
def Sys2Proof.Claims.SleepAndPriority : Prop :=
  Does .sleep 0x11 0 (fun x s => if valueA x = 0 then x.completed s .none
    else x.completed (s.setGroup x.gi { x.g with wait := .sleep (s.cycle + valueA x) }) .none)
  ∧ Does .prio 0x12 0 (sets fun x g => { g with prio := BitVec.ofNat 2 (valueA x) })
  ∧ ∀ (e : Enc) (s : State) (g : Group), s.groups[s.cur]? = some g →
      (∀ x, x = s.iss g 0x12 0 e → x.issues s = true → 3 < valueA x →
        ∃ c : Why, c.1 ≤ 0x16 ∧ exec (.prio e) s = .next (x.trapped s 0x01 c.1 (BitVec.ofNat 64 (c.1 + 256 * c.2))))
      ∧ ∀ x, x = s.iss g 0x15 0 e → x.clear s = true → e.csr = 0x010 →
        exec (.csrw e) s = .next (x.completed (s.setGroup s.cur { g with prio := BitVec.ofNat 2 (valueA x) }) .none)

/-- GETID gives the item that its constant selects, CSRR the CSR that its literal names. -/
def Sys2Proof.Claims.Identities : Prop :=
  Does .getid 0x13 0 (fun x s => x.delivered s false fun _ => match valueA x with
    | 0 => BitVec.ofNat 64 x.g.idx
    | 1 => x.g.team.setWidth 64
    | 2 => x.g.grid.setWidth 64
    | 3 => BitVec.ofNat 64 x.g.width
    | 4 => BitVec.ofNat 64 (x.g.core / 36 * 2 ^ 14 + x.g.core * 2 ^ 6 + x.g.quad * 2 ^ 4 + (if x.g.half then 1 else 0))
    | 5 => x.g.role.setWidth 64
    | 6 => BitVec.ofNat 64 x.g.nGroups
    | _ => (((s.grid? x.g.grid).map Grid.gcnt).getD 0).setWidth 64)
  ∧ Does .csrr 0x14 0 (fun x s => x.delivered s (csrWide x.e.csr) fun _ => s.csr x.g x.e.csr)

/-- CSRW and CSRX give a writable CSR its new value and leave a read-only one; CSRX delivers the old value. -/
def Sys2Proof.Claims.CsrWrites : Prop :=
  Does .csrw 0x15 0 (fun x s => x.completed (csrWritten (fun _ v => v) x s) .none)
  ∧ Exchanges .csrxSwap 0 (fun _ v => v)
  ∧ Exchanges .csrxSet 1 (fun old v => old ||| v)
  ∧ Exchanges .csrxClear 2 (fun old v => old &&& ~~~v)

/-- What a written CSR reads as: its fields at their places, reserved bits zero. TOL is shared by the groups of the grid. -/
def Sys2Proof.Claims.CsrFields : Prop :=
  ∀ (s : State) (gi : Nat) (g : Group) (w : W64), s.groups[gi]? = some g → g.pmc.length = 8 → g.pmsel.length = 8 →
    let reads (c : Nat) (m : W64) : Prop := ∃ h, (s.setCsr gi g c w).groups[gi]? = some h ∧ (s.setCsr gi g c w).csr h c = w &&& m
    reads 0x010 0x3 ∧ reads 0x011 0xF ∧ reads 0x012 0xFFFF ∧ reads 0x013 0x3FFF ∧ reads 0x014 0x1
    ∧ reads 0x021 0x01FFFFFFFFFFFFE0 ∧ reads 0x025 0xFFFFFFFFFFFFFFFF ∧ reads 0x031 0xFFFFFFFFFFFFFFFF ∧ reads 0x121 0xFF
    ∧ (∀ k < 8, reads (0x100 + k) 0xFFFFFFFFFFFF ∧ reads (0x110 + k) 0x1F)
    ∧ (∀ r, s.grid? g.grid = some r → ∀ h : Group, h.grid = g.grid → (s.setCsr gi g 0x015 w).csr h 0x015 = w)
    ∧ (∃ h, (s.setCsr gi g 0x120 w).groups[gi]? = some h ∧ h.pmovf = g.pmovf &&& ~~~(w.setWidth 8))
    ∧ ∀ c, csrRO c = false → c ∈ [0x010, 0x011, 0x012, 0x013, 0x014, 0x015, 0x021, 0x025, 0x031, 0x120, 0x121] ∨ (0x100 ≤ c ∧ c ≤ 0x107)
        ∨ (0x110 ≤ c ∧ c ≤ 0x117)

/-- LPCR writes the program counter of every lane for which its guard holds, whatever the lane's state: the recorded one of a parked or
exited lane, the group's PC else. -/
def Sys2Proof.Claims.LanePCs : Prop :=
  ∀ (e : Enc) (s : State) (g : Group) (k : Fin 256), s.groups[s.cur]? = some g → (s.iss g 0x17 0 e).clear s = true → e.dst = .v k →
    e.nw = false →
    let x := s.iss g 0x17 0 e
    let lanes := maskOf g.width x.guard
    let pcOf (i : Nat) : W64 := if g.parked.getLsbD i || g.exited.getLsbD i then (g.lanePC[i]?).getD 0 else g.pc
    lanes ≠ 0 →
    exec (.lpcr e) s = .next (x.completed (s.setGroup s.cur
      ((g.setV k lanes ((List.range g.width).map fun i => (pcOf i).setWidth 32) 0 g.width).setV (k + 1) lanes
        ((List.range g.width).map fun i => (pcOf i >>> 32).setWidth 32) 0 g.width)) .none)

/-- TRAP and SVC enter their traps; ERET ends trap level and goes to XRPC with exec as it stands, which replays a chain where that is its
first address. -/
def Sys2Proof.Claims.TrapForms : Prop :=
  Does .trap 0x18 0 (raises 0x09)
  ∧ Does .svc 0x1A 0 (raises 0x0A)
  ∧ Does .eret 0x19 0 (fun x s =>
      let t := s.setGroup x.gi { x.g with trap := false, pc := x.g.xrpc, chain := none }
      x.left (if x.g.inchain ∧ x.g.xrpc = x.g.chfirst then t.noteReplay x.gi else t))
  ∧ ∀ (e : Enc) (s : State) (g : Group), g.trap = false → (s.iss g 0x19 0 e).legal s = false

/-- MARK writes one record to its core's Reel; TSRD reads the device clock or the cycles since its core left reset. -/
def Sys2Proof.Claims.MarksAndTimes : Prop :=
  Does .mark 0x1B 0 (fun x s => x.completed (s.reel x.g.core 0x0C (some x.g.ctx)
    (x.g.gslot + (x.word x.e.sb x.ul).toNat * 2 ^ 51 + valueA x)) .none)
  ∧ Does .tsrd 0x1C 0 (fun x s => x.delivered s true fun _ =>
      if valueA x = 0 then s.nstime else BitVec.ofNat 64 (s.cycle - ((s.cores[x.g.core]?).map Core.start).getD 0))

namespace Sys2Proof.Claims

/-- A form that has to try again in a later cycle, for a reason and until one of some budgets has room (spec 01 R43, 18 R326, 21 R382). -/
def retries (x : Iss) (s : State) (reason : Nat) (budgets : List (Nat × Nat)) : State :=
  s.modGroup x.gi fun h => { h with wait := .again reason s.cycle budgets }

/-- The budgets of the demand class at the home dies of some requests. -/
def demands (rs : List (Nat × Nat)) : List (Nat × Nat) := rs.map fun r => (0, homeDie r.1)

/-- A form one of whose accesses, of a kind, faults or has to wait. -/
def faulted (x : Iss) (s : State) (k : AccK) (f : Flt) : State :=
  match f with
  | .mem kind va => x.trapped (s.reelPoison x.g false f) 0x04 kind va
  | .noKey va => x.trapped s 0x04 0x05 va
  | .absent va level => x.stays (s.holdGroup x.gi x.e.ch k.code va level)
  | .wait reason b => retries x s reason b

/-- A form that accesses memory by lanes (spec 10 R239, 04 R98): a misaligned address traps before any access; the first address in
lane order that faults traps, or without a translation holds the group; an access that has to wait for a walker, or whose class is
held by its budget (spec 18 R326), is tried again; else r gives the state, from the places of all lanes. What the group itself has
still to do to poisoned lines is done before one that reads (settlePoison; spec 04 R118). -/
def AccessesIf (p : Enc → Prop) (mk : Enc → Instr) (opc sub : Nat) (k : AccK) (n : Enc → Nat) (sp : Enc → Space)
    (r : Iss → State → List (Nat × Place) → State) : Prop :=
  ∀ (e : Enc) (s s1 : State) (g : Group), p e → s.groups[s.cur]? = some g → (s.iss g opc sub e).clear s = true →
    let x := s.iss g opc sub e
    let at_ := (s.settlePoison s.cur k).resolveAll s.cur g k (sp e) (n e) x.addrs
    (∀ a, misaligned x.addrs (n e) = some a → exec (mk e) s = .next (x.trapped s 0x03 0 a))
    ∧ (∀ f, misaligned x.addrs (n e) = none → at_ = (s1, .error f) → exec (mk e) s = .next (faulted x s1 k f))
    ∧ ∀ ps, misaligned x.addrs (n e) = none → at_ = (s1, .ok ps) →
        let rs := ps.filterMap fun p => p.2.devBytes (n e)
        (s1.held 0 rs = true → exec (mk e) s = .next (retries x s1 17 (demands rs)))
        ∧ (s1.held 0 rs = false → exec (mk e) s = .next (x.completed (r x (s1.charge 0 rs) ps) .none))

/-- Bytes of the form's element type. -/
def esz (e : Enc) : Nat := tyBits e.ety / 8

/-- The space that a form names. -/
def spc (e : Enc) : Space := spaceOf e.space

/-- Accesses issued as one operation, one for each place, with operands a and b, which are performed after the issue; words: the words
of each lane's result. Those that reach the group's spill window are performed at once (spec 02 R56; log 10). -/
def accesses (c : Cls) (kind : AccKind) (n : Enc → Nat) (words : Enc → Nat) (a b : Iss → Nat → Nat) (x : Iss) (s : State)
    (ps : List (Nat × Place)) : State :=
  let o := x.memOp c kind ps (n x.e) (words x.e) (a x) (b x)
  if ps.any fun p => x.g.spills p.2 (n x.e) then (s.addOp x.gi o).settleOp x.gi x.g.opSeq else s.addOp x.gi o

/-- The words of a result of the form's element type. -/
def wordsE (e : Enc) : Nat := if tyBits e.ety = 64 then 2 else 1

/-- No operand. -/
def unused (_ : Iss) (_ : Nat) : Nat := 0

/-- A load from a space other than K: its lines come into L1, and its values are read after its issue (spec 10 R241, R246). -/
def loads (x : Iss) (s : State) (ps : List (Nat × Place)) : State :=
  accesses .ld .load esz wordsE unused unused x (ps.foldl (fun s p => s.touchPlace x.gi x.g.core p.2) s) ps

/-- LD and LDU (spec 10 R241). A load from K resolves each lane's bytes word by word, since the constant block may begin anywhere in a
line, and reads them at its issue, which no ordering forbids (04 R100, R131; log 10): the values land when it completes. -/
def Loads (mk : Enc → Instr) (opc : Nat) : Prop :=
  AccessesIf (fun e => spc e ≠ .k) mk opc 0 .load esz spc loads
  ∧ ∀ (e : Enc) (s s1 : State) (g : Group), spc e = .k → s.groups[s.cur]? = some g → (s.iss g opc 0 e).clear s = true →
    let x := s.iss g opc 0 e
    let at_ := s.constPlaces s.cur g (esz e) x.addrs
    (∀ a, misaligned x.addrs (esz e) = some a → exec (mk e) s = .next (x.trapped s 0x03 0 a))
    ∧ (∀ f, misaligned x.addrs (esz e) = none → at_ = (s1, .error f) → exec (mk e) s = .next (faulted x s1 .load f))
    ∧ ∀ ps, misaligned x.addrs (esz e) = none → at_ = (s1, .ok ps) →
        let rs := devRanges (ps.flatMap Prod.snd)
        let t := ps.foldl (fun s p => p.2.foldl (fun s q => s.touchPlace s.cur g.core q.1) s) (s1.charge 0 rs)
        let val (i : Nat) : Nat := ((ps.find? fun p => p.1 = i).map fun p => leNat (p.2.flatMap fun q => t.readAt q.1 q.2)).getD 0
        let l := x.landing (wordsE e) fun i j => (Iss.packResult e.ety false [val i] >>> (32 * j)).setWidth 32
        (s1.held 0 rs = true → exec (mk e) s = .next (retries x s1 17 (demands rs)))
        ∧ (s1.held 0 rs = false →
          exec (mk e) s = .next (x.completed (t.addOp s.cur (x.op (some .ld) .plain l.1 l.2)) .none))

/-- Where the bytes of loads from K lie (spec 04 R100): those of each address, in lane order, in words of 4 bytes that are resolved
one by one. -/
def ConstantPlaces : Prop :=
  ∀ (s t : State) (gi n : Nat) (g : Group),
    (∀ as ps, s.constPlaces gi g n as = (t, .ok ps) → ps.map Prod.fst = as.map Prod.fst
      ∧ ∀ (i : Nat) (a : Nat × W64) (q : Nat × List (Place × Nat)), as[i]? = some a → ps[i]? = some q →
          ∃ u v, State.placesAt u gi g .load .k a.2 n = (v, .ok q.2))
    ∧ ∀ (k : AccK) (a : W64) (ps : List (Place × Nat)), s.placesAt gi g k .k a n = (t, .ok ps) →
        ps.length = (n + 3) / 4 ∧ ∀ (j : Nat) (q : Place × Nat), ps[j]? = some q →
          q.2 = min 4 (n - 4 * j) ∧ ∃ u v, State.resolve u gi g false k .k (a + BitVec.ofNat 64 (4 * j)) q.2 = (v, .ok q.1)

/-- What a group has still to do to poisoned lines is done before an access of its own that reads, and nothing where there is none (spec
04 R118, 20 R357). -/
def PoisonSettled : Prop :=
  ∀ (s : State) (gi : Nat) (k : AccK),
    (k = .store ∨ k = .engWrite ∨ s.poison = [] → s.settlePoison gi k = s)
    ∧ (∀ g, s.groups[gi]? = some g → (∀ o ∈ g.ops, ∀ b, o.acc? = some b → ∀ t ∈ b.todo, ∀ pa key, t.place = .dev pa key →
        pa / 128 ∉ s.poison) → s.settlePoison gi k = s)
    ∧ (k ≠ .store → k ≠ .engWrite → s.poison ≠ [] →
        s.settlePoison gi k = s.settle gi fun _ t => match t.place with
          | .dev pa _ => s.poison.contains (pa / 128)
          | _ => false)

/-- A store of each lane's data register. -/
def stores : Iss → State → List (Nat × Place) → State := accesses .st .store esz (fun _ => 0) Iss.dataOf unused

/-- A sum of a type's patterns: modulo 2^N, or rounded to nearest even. -/
def sum (ty a b : Nat) : Nat :=
  if tyInt ty then intResult ty false (intVal ty a + intVal ty b)
  else encodeV (fmtOf ty 0) false 0 (addV (decodeF (fmtOf ty 0) a) (decodeF (fmtOf ty 0) b) 0)

/-- The smaller of two patterns of a type. -/
def least (ty a b : Nat) : Nat :=
  if tyInt ty then intResult ty false (min (intVal ty a) (intVal ty b)) else minMaxF (fmtOf ty 0) false a b

/-- The larger of two patterns of a type. -/
def most (ty a b : Nat) : Nat :=
  if tyInt ty then intResult ty false (max (intVal ty a) (intVal ty b)) else minMaxF (fmtOf ty 0) true a b

/-- The operand that a lane gives an atomic form in a field. -/
def given (a : Enc → Src) (x : Iss) (i : Nat) : Nat := x.elem (a x.e) x.e.ety 0 false i 0

/-- ATOM, whose old values land, and RED, which returns none (spec 10 R243). -/
def atomics (sub : Nat) : Iss → State → List (Nat × Place) → State :=
  accesses .ld (.atom sub) esz wordsE (given Enc.sc) (given Enc.sd)
@[inherit_doc atomics]
def reduces (sub : Nat) : Iss → State → List (Nat × Place) → State := accesses .st (.red sub) esz (fun _ => 0) (given Enc.sc) unused

/-- What an atomic operation puts in the place of a pattern old, from a lane's operands b and c; none: nothing (spec 10 R243). -/
def atomic (sub ty old b c : Nat) : Option Nat :=
  match sub with
  | 0 => some (sum ty old b)
  | 1 => some (old &&& b)
  | 2 => some (old ||| b)
  | 3 => some (old ^^^ b)
  | 4 => some (least ty old b)
  | 5 => some (most ty old b)
  | 6 => some b
  | _ => if old = b then some c else none

/-- The 128 bits of a quad operand in a lane, word 0 lowest. -/
def quad (x : Iss) (a : Src) (i : Nat) : Nat :=
  ((List.range 4).map fun j => (x.quad a i j).toNat * 2 ^ (32 * j)).sum

/-- ATOMC and ATOM.XADD on cells of 16 bytes (spec 10 R244). -/
def cells (kind : AccKind) : Iss → State → List (Nat × Place) → State :=
  accesses .ld kind (fun _ => 16) (fun _ => 4) (fun x => quad x x.e.sc) fun x => quad x x.e.sd

/-- Cache maintenance of the line of each address (spec 10 R247). -/
def maintains (kind : AccKind) (x : Iss) (s : State) (ps : List (Nat × Place)) : State :=
  accesses .st kind (fun _ => 128) (fun _ => 0) unused unused x s (ps.map fun p => (p.1, match p.2 with
    | .dev pa key => .dev (pa / 128 * 128) key
    | .host pa => .host (pa / 128 * 128)
    | q => q))

/-- The address of LDB and STB. -/
def arrayAddr (x : Iss) : W64 :=
  if x.e.space = 0 then x.pair x.e.sa x.ul + (x.word x.e.sb x.ul).signExtend 64
  else (x.word x.e.sa x.ul + x.word x.e.sb x.ul).setWidth 64

/-- Accesses by lanes, whatever the form's fields. -/
def Accesses : (Enc → Instr) → Nat → Nat → AccK → (Enc → Nat) → (Enc → Space) → (Iss → State → List (Nat × Place) → State) → Prop :=
  AccessesIf fun _ => True

/-- LDB (spec 10 R242): a header that a reader rejects is a memory fault, a number that is too long traps BIGLEN, else the number
lands when the load completes. Accesses of the group that come before it are performed first (log 10). -/
def LoadsArray : Prop :=
  ∀ (e : Enc) (s s1 : State) (g : Group) (k : Fin 256) (hs : List (Place × Nat)), s.groups[s.cur]? = some g →
    (s.iss g 0xA7 0 e).clear s = true → e.dst = .v k → e.nw = false →
    let x := s.iss g 0xA7 0 e
    let a := arrayAddr x
    (a.toNat % 16 ≠ 0 → exec (.ldb e) s = .next (x.trapped s 0x03 0 a))
    ∧ (a.toNat % 16 = 0 → (s.settlePoison s.cur .load).placesAt s.cur g .load (spc e) a 16 = (s1, .ok hs) →
    (s1.held 0 (devRanges hs) = true → exec (.ldb e) s = .next (retries x s1 17 (demands (devRanges hs))))
    ∧ (s1.held 0 (devRanges hs) = false →
      let t := (s1.charge 0 (devRanges hs)).settleFor s.cur false hs
      let hd := hdrOf (hs.flatMap fun q => t.readAt q.1 q.2)
      (hd.bad = true → exec (.ldb e) s = .next (x.trapped t 0x04 0x06 a))
      ∧ (hd.bad = false → g.tooLong hd.len.toNat = true →
          exec (.ldb e) s = .next (x.trapped t 0x05 0 (BitVec.ofNat 64 hd.len.toNat)))
      ∧ ∀ s2 ps, hd.bad = false → g.tooLong hd.len.toNat = false →
          t.placeRange s.cur g false .load (spc e) (a + 16) (4 * hd.len.toNat) = (s2, ps, none) →
          let u := (s2.settleFor s.cur false ps).charge 0 (devRanges ps)
          exec (.ldb e) s = .next (x.completed (u.addOp s.cur (x.op (some .ld) .plain
            (x.landBig k (bignum (wordsOf (ps.flatMap fun q => u.readAt q.1 q.2))) hd.len.toNat) [.v k])) .none)))

/-- STB (spec 10 R242): the limbs of the register's number, then its header, written in turn after the issue. -/
def StoresArray : Prop :=
  ∀ (e : Enc) (s s1 s2 : State) (g : Group) (k : Fin 256) (ps : List (Place × Nat)) (p : Place), s.groups[s.cur]? = some g →
    (s.iss g 0xA8 0 e).clear s = true → e.dst = .v k →
    let x := s.iss g 0xA8 0 e
    let a := arrayAddr x
    let ls := s.limbsOf g k
    (a.toNat % 16 ≠ 0 → exec (.stb e) s = .next (x.trapped s 0x03 0 a))
    ∧ (a.toNat % 16 = 0 → s.placeRange s.cur g false .store (spc e) (a + 16) (4 * ls.length) = (s1, ps, none) →
    s1.resolve s.cur g false .store (spc e) a 16 = (s2, .ok p) →
    let qs := ps ++ [(p, 16)]
    let bs := bytesOf (ls ++ [BitVec.ofNat 32 ls.length, BitVec.ofNat 32 (g.width + 1),
      if leastLen (bignum ls) = ls.length then 1 else 0, 0])
    (s2.held 0 (devRanges qs) = true → exec (.stb e) s = .next (retries x s2 17 (demands (devRanges qs))))
    ∧ (s2.held 0 (devRanges qs) = false → ∃ o : Op,
        exec (.stb e) s = .next (x.completed ((s2.charge 0 (devRanges qs)).addMem x o) .none)
        ∧ o.cls = some .st ∧ ∃ b : Acc, o.body = .mem b ∧ b.kind = .array ∧ b.ord = e.order ∧ b.scope = e.scope
          ∧ b.todo.map (fun t => (t.place, t.n, t.a)) = splitOver qs bs ∧ b.todo.map Access.lane = List.range qs.length))

/-- The addresses of a PREF in lane order: where they lie, those that would fault left out, up to the first that waits (spec 10 R246). -/
def preferred (x : Iss) (s : State) : State × List Place × Option (Nat × List (Nat × Nat)) :=
  x.addrs.foldl (fun r a => match r.2.2 with
    | some w => (r.1, r.2.1, some w)
    | none => match r.1.resolve x.gi x.g false .load (spc x.e) a.2 1 with
      | (s1, .ok p) => (s1, r.2.1 ++ [p], none)
      | (s1, .error (.wait reason b)) => (s1, r.2.1, some (reason, b))
      | (s1, .error _) => (s1, r.2.1, none)) (s, [], none)

/-- PREF (spec 10 R246): the lines that resolve come into L1; it waits for a walker and for a budget as other accesses do (18 R326, 19
R334). -/
def Prefetches : Prop :=
  ∀ (e : Enc) (s : State) (g : Group), s.groups[s.cur]? = some g → (s.iss g 0xAD 0 e).clear s = true →
    let x := s.iss g 0xAD 0 e
    let r := preferred x s
    let rs := devRanges (r.2.1.map fun p => (p, 128))
    (∀ reason b, r.2.2 = some (reason, b) → exec (.pref e) s = .next (retries x r.1 reason b))
    ∧ (r.2.2 = none → r.1.held 0 rs = true → exec (.pref e) s = .next (retries x r.1 17 (demands rs)))
    ∧ (r.2.2 = none → r.1.held 0 rs = false → exec (.pref e) s = .next (x.completed
        ((r.2.1.foldl (fun s p => s.touchPlace x.gi x.g.core p) (r.1.charge 0 rs)).addOp x.gi (x.op (some .ld) .plain)) .none))

/-- A line dropped from the caches of a scope instance (spec 10 R247, 04 R119): no L1 of a core in it holds the line any longer, nor
does its home slice where the instance holds that; every other line stays. -/
def LinesDropped : Prop :=
  ∀ (s : State) (g : Group) (scope : Nat) (host : Bool) (line : Nat),
    let t := s.dropLine g scope host line
    (∀ (i : Nat) (c : Core), s.cores[i]? = some c → t.cores[i]? = some { c with
        l1 := if inScope scope g (s.teamOf g) i then c.l1.filter (fun l => ¬ (l.host = host ∧ l.line = line)) else c.l1 })
    ∧ t.cache = (if host = false ∧ (4 ≤ scope ∨ (scope = 3 ∧ homeDie (128 * line) = dieOf g.core)) then
        s.cache.filter (fun c => c.line != line) else s.cache)
    ∧ t.mem = s.mem ∧ t.hostMem = s.hostMem

/-- The operation of accesses: one for each lane, in lane order, with its operands. -/
def AccessesAre : Prop :=
  ∀ (x : Iss) (c : Cls) (kind : AccKind) (ps : List (Nat × Place)) (n words : Nat) (a b : Nat → Nat),
    ∃ m : Acc, (x.memOp c kind ps n words a b).body = .mem m ∧ (x.memOp c kind ps n words a b).cls = some c
      ∧ m.kind = kind ∧ m.ety = x.e.ety ∧ m.ord = x.e.order ∧ m.scope = x.e.scope ∧ m.got = []
      ∧ m.todo.length = ps.length
      ∧ ∀ (i : Nat) (p : Nat × Place), ps[i]? = some p →
          m.todo[i]? = some { lane := p.1, place := p.2, n := n, a := a p.1, b := b p.1 }

/-- An access performed: no other byte changes, it is no longer to be performed, and its lane keeps what it read. f: the memory that it
leaves, from what its place held. -/
def Performs (p : AccKind → Prop) (gets : Bool) (f : State → Group → Acc → Access → Place → Nat → State) : Prop :=
  ∀ (s : State) (gi id lane : Nat) (g : Group) (a : Acc) (t : Access), s.accessOf gi id lane = some (g, a, t) → p a.kind →
    let q := s.here g t.place
    let old := leNat (s.readAt q t.n)
    s.perform gi id lane = (f s g a t q old).performed gi id a lane (if gets then some old else none)

/-- What is left of an operation when an access of it has been performed; lines that it has then stored whole lose their poison, and
no memory changes (spec 04 R118). -/
def PerformedMarks : Prop :=
  ∀ (s : State) (gi id lane : Nat) (g : Group) (o : Op) (a : Acc) (old : Option Nat), s.groups[gi]? = some g → g.op? id = some o →
    o.body = .mem a →
    let t := s.performed gi id a lane old
    t.mem = s.mem ∧ t.hostMem = s.hostMem ∧ t.teams = s.teams ∧ (∀ l, l ∈ t.poison → l ∈ s.poison)
    ∧ (∀ l ∈ s.poison, (∀ u ∈ a.todo, u.lane = lane → ∀ pa key, u.place = .dev pa key → pa / 128 ≠ l) → l ∈ t.poison)
    ∧ ∃ h p, t.groups[gi]? = some h ∧ h.op? id = some p ∧ ∃ b, p.body = .mem b
      ∧ b.todo = a.todo.filter (fun u => u.lane != lane) ∧ b.got = (match old with | some v => (lane, v) :: a.got | none => a.got)

/-- The order of a group's accesses (spec 04 R122, R124): one that is performed while its operation and others are outstanding comes
after every access of an earlier instruction that is an acquire, of the same bytes, or sequentially consistent as it is itself, and a
release after all of them, unless it is a compare-and-swap that fails (10 R243, R244); and after the accesses of lower lanes to the same bytes, in a store or an integer atomic. -/
def OrderedAccesses : Prop :=
  ∀ (s : State) (gi id lane : Nat) (g : Group) (a : Acc) (t : Access), s.accessOf gi id lane = some (g, a, t) →
    s.performMove gi id lane ≠ s →
    (∀ (o : Op) (b : Acc) (u : Access), o ∈ g.ops.takeWhile (fun o => o.id != id) → o.phase = .queued → o.body = .mem b → u ∈ b.todo →
      ¬ (b.scope ≠ 0 ∧ (b.ord = 1 ∨ b.ord = 3 ∨ b.ord = 4))
      ∧ ((a.kind ≠ .atom 7 ∧ a.kind ≠ .cas) ∨ leNat (s.readAt (s.here g t.place) t.n) = t.a →
        ¬ (a.scope ≠ 0 ∧ (a.ord = 2 ∨ a.ord = 3 ∨ a.ord = 4)) ∧ ¬ (a.ord = 4 ∧ b.ord = 4))
      ∧ u.place.own.meets u.n t.place.own t.n = false)
    ∧ ∀ u ∈ a.todo, u.lane < t.lane → (a.kind = .store ∨ a.kind = .cas ∨ a.kind = .xadd ∨ ((∃ sub, a.kind = .atom sub) ∧ tyInt a.ety = true)) →
        u.place.meets u.n t.place t.n = false

/-- The completion of a load, a store or an atomic: what it has still to perform is performed, and its lanes' words land. -/
def AccessesEnd : Prop :=
  ∀ (s : State) (gi id : Nat) (g : Group) (o : Op) (a : Acc), s.groups[gi]? = some g → g.op? id = some o → o.phase = .queued →
    o.body = .mem a → a.todo = [] →
    s.completeMem gi id = s.finishOp gi id (a.fill o.lands) none
    ∧ ∀ (j k : Nat) (m : Mask) (vals : List W32) (tag : Byte), o.lands[j]? = some (.v k m vals tag) →
        ∃ ws, (a.fill o.lands)[j]? = some (.v k m ws tag) ∧ ws.length = vals.length
          ∧ ∀ (i : Nat) (w : W32) (l v : Nat), ws[i]? = some w → l = a.uni.getD i → a.got.find? (fun p => p.1 = l) = some (l, v) →
            w = (match a.kind with
              | .load => (Iss.packResult a.ety false [v] >>> (32 * j)).setWidth 32
              | _ => BitVec.ofNat 32 (v / 2 ^ (32 * j)))

end Sys2Proof.Claims

/-- Loads, stores, limb arrays, prefetch, cache maintenance and waits on counters; what an access does when it is performed, what it
comes after, and how its operation ends (log 10). That LDB and STB read a vector offset on the lane of R17 is log 24. -/
def Obligations.LoadsAndStores : Prop :=
  Loads .ld 0xA4 ∧ Loads .ldu 0xA5 ∧ ConstantPlaces ∧ PoisonSettled
  ∧ Accesses .st 0xA6 0 .store esz spc stores
  ∧ LoadsArray ∧ StoresArray
  ∧ Accesses .cflush 0xAE 0 .store (fun _ => 1) (fun _ => .g) (maintains .clean)
  ∧ Accesses .cinv 0xAF 0 .store (fun _ => 1) (fun _ => .g) (maintains .inval)
  ∧ Prefetches
  ∧ Does .waitc 0xAC 0 (fun x s => x.completed s .none)
  ∧ Does .waitcScFence 0xAC 0 (fun x s => x.completed s .none)
  ∧ (∀ (e : Enc) (s : State) (g : Group), (s.iss g 0xAC 0 e).legal s = true → (s.iss g 0xAC 0 e).runs = true → e.wcls ≤ 9 →
      (s.iss g 0xAC 0 e).issues s = true → ∀ c : Cls, (e.wcls = 9 ∨ [Cls.ld, .st, .xc, .mx, .nt, .ln, .hp, .sk, .cq][e.wcls]? = some c) →
      (g.ops.filter fun o => o.cls = some c).length ≤ ((s.iss g 0xAC 0 e).word e.sa (s.iss g 0xAC 0 e).ul).toNat)
  ∧ (∀ x : Iss, x.addrs = x.readers.map fun i => (i, if x.e.space = 0 then x.pair x.e.sa i + (x.word x.e.sb i).signExtend 64
      else (x.word x.e.sa i + x.word x.e.sb i).setWidth 64))
  ∧ AccessesAre
  ∧ Performs (· = .load) true (fun s _ _ _ _ _ => s)
  ∧ Performs (fun k => k = .store ∨ k = .array) false (fun s _ _ t q _ => s.writeAt q (leBytes t.n t.a))
  ∧ Performs (· = .clean) false (fun s _ _ _ q _ => match q with
      | .dev pa _ => s.cleanLine (pa / 128)
      | _ => s)
  ∧ Performs (· = .inval) false (fun s g a _ q _ => match q with
      | .dev pa _ => (s.cleanLine (pa / 128)).dropLine g a.scope false (pa / 128)
      | .host pa => s.dropLine g a.scope true (pa / 128)
      | _ => s)
  ∧ LinesDropped
  ∧ PerformedMarks ∧ OrderedAccesses ∧ AccessesEnd

/-- Atomics: each lane reads and replaces the bytes at its place as one step, made when it is performed (log 10); ATOM and ATOMC return
what was there. A float sum without a result may be combined with others that wait at its cell, in a tree that is left open (spec 04
R133; log 3). -/
def Obligations.Atomics : Prop :=
  Accesses .atomAdd 0xA9 0 .atomic esz spc (atomics 0)
  ∧ Accesses .atomAnd 0xA9 1 .atomic esz spc (atomics 1)
  ∧ Accesses .atomOr 0xA9 2 .atomic esz spc (atomics 2)
  ∧ Accesses .atomXor 0xA9 3 .atomic esz spc (atomics 3)
  ∧ Accesses .atomMin 0xA9 4 .atomic esz spc (atomics 4)
  ∧ Accesses .atomMax 0xA9 5 .atomic esz spc (atomics 5)
  ∧ Accesses .atomExch 0xA9 6 .atomic esz spc (atomics 6)
  ∧ Accesses .atomCas 0xA9 7 .atomic esz spc (atomics 7)
  ∧ Accesses .redAdd 0xAB 0 .atomic esz spc (reduces 0)
  ∧ Accesses .redAnd 0xAB 1 .atomic esz spc (reduces 1)
  ∧ Accesses .redOr 0xAB 2 .atomic esz spc (reduces 2)
  ∧ Accesses .redXor 0xAB 3 .atomic esz spc (reduces 3)
  ∧ Accesses .redMin 0xAB 4 .atomic esz spc (reduces 4)
  ∧ Accesses .redMax 0xAB 5 .atomic esz spc (reduces 5)
  ∧ Accesses .atomcCas 0xAA 0 .atomic (fun _ => 16) spc (cells .cas)
  ∧ Accesses .atomXadd 0xAA 1 .atomic (fun _ => 16) spc (cells .xadd)
  ∧ Performs (fun k => ∃ sub < 8, k = .atom sub) true (fun s _ a t q old =>
      match a.kind with
      | .atom sub => (match atomic sub a.ety old t.a t.b with
        | some v => s.writeAt q (leBytes t.n v)
        | none => s)
      | _ => s)
  ∧ Performs (· = .cas) true (fun s _ _ t q old => if old = t.a then s.writeAt q (leBytes t.n t.b) else s)
  ∧ Performs (· = .xadd) true (fun s _ _ t q old =>
      s.writeAt q (leBytes t.n (wrapN (sextN (wrapN (sextN old 96 + sextN t.a 96) 96) 96) 128)))
  ∧ ∀ (s : State) (gi id lane : Nat) (g : Group) (a : Acc) (t : Access) (sub : Nat), s.accessOf gi id lane = some (g, a, t) →
      a.kind = .red sub → sub < 8 →
      let q := s.here g t.place
      let old := leNat (s.readAt q t.n)
      (sub ≠ 0 ∨ tyInt a.ety = true → s.perform gi id lane = State.performed (match atomic sub a.ety old t.a t.b with
        | some v => s.writeAt q (leBytes t.n v)
        | none => s) gi id a lane none)
      ∧ (sub = 0 → tyInt a.ety = false → ∃ (ms : List (Nat × Nat × Nat × Nat)) (c : Nat), (∀ m ∈ ms, m ∈ s.redMates a t q) ∧
          s.perform gi id lane = ((State.writeAt { s with freeCount := s.freeCount + 2 } q (leBytes t.n
            (freeTree (sum a.ety) c (ms.length + 1) (old :: t.a :: ms.map fun m => m.2.2.2)))).performedAll ms).performed gi id a lane
              none)

namespace Sys2Proof.Claims

/-- A form that hands an operation to an engine and raises a counter: the operation stands last of its group's, queued. -/
def queues (c : Cls) (body : Iss → State → OpBody) (x : Iss) (s : State) : State :=
  x.completed (s.addOp x.gi (x.op (some c) (body x s))) .none

/-- The address that an operand holds in a space. -/
def addrIn (x : Iss) (sp : Space) (a : Src) : W64 := if sp = .g then x.pair a x.ul else (x.word a x.ul).setWidth 64

/-- A 32-bit operand on the lane of R17. -/
def num (x : Iss) (a : Src) : Nat := (x.word a x.ul).toNat

/-- An operation with nothing to do completes at once. -/
def nothing (c : Cls) (x : Iss) (s : State) : State :=
  x.completed (State.modGroup (s.addOp x.gi (x.op (some c) .plain (phase := .done))) x.gi fun g => g.retire s.cycle) .none

/-- A copy form whose addresses have to be multiples of n: the first that is not traps. -/
def Copies (mk : Enc → Instr) (opc : Nat) (n : Nat) (as : Iss → List W64) (r : Iss → State → State) : Prop :=
  ∀ (e : Enc) (s : State) (g : Group), s.groups[s.cur]? = some g → (s.iss g opc 0 e).clear s = true →
    let x := s.iss g opc 0 e
    (∀ a, ((as x).find? fun a => a.toNat % n != 0) = some a → exec (mk e) s = .next (x.trapped s 0x03 0 a))
    ∧ ((∀ a ∈ as x, a.toNat % n = 0) → exec (mk e) s = .next (r x s))

/-- XREG (spec 10 R251): registers of the group, or of another group of its team, to or from memory; nothing for a group that has
exited, or that a reset of its core has taken away (19 R341). A group at or above the team's count makes the form illegal. -/
def CopiesRegisters : Prop :=
  (∀ (e : Enc) (s : State) (g : Group), (s.iss g 0xB3 0 e).word e.sb (s.iss g 0xB3 0 e).ul ≠ 0xFFFFFFFF →
    g.nGroups ≤ ((s.iss g 0xB3 0 e).word e.sb (s.iss g 0xB3 0 e).ul).toNat → (s.iss g 0xB3 0 e).legal s = false)
  ∧ ∀ (e : Enc) (s : State) (g h : Group) (t : Nat), s.groups[s.cur]? = some g → (s.iss g 0xB3 0 e).clear s = true →
    let x := s.iss g 0xB3 0 e
    let sp := spaceOf (e.ctlF 118 116)
    let a := addrIn x sp e.sa
    let k := e.ctlF 127 120
    let n := e.ctlF 115 108 + 1
    (a.toNat % 4 ≠ 0 → exec (.xreg e) s = .next (x.trapped s 0x03 0 a))
    ∧ (a.toNat % 4 = 0 → s.mate s.cur g (x.word e.sb x.ul) = none → exec (.xreg e) s = .next (nothing .xc x s))
    ∧ (a.toNat % 4 = 0 → s.mate s.cur g (x.word e.sb x.ul) = some t → s.groups[t]? = some h →
        (h.gone = true → exec (.xreg e) s = .next (nothing .xc x s))
        ∧ (h.gone = false → e.ctlF 119 119 = 1 → exec (.xreg e) s = .next (queues .xc (fun _ _ => .regOut sp a
            ((List.range n).flatMap fun j => (List.range h.width).map fun i => h.v (k + j) i)) x s))
        ∧ (h.gone = false → e.ctlF 119 119 = 0 → exec (.xreg e) s = .next (queues .xc (fun _ _ => .regIn sp a t k n) x s)))

/-- A group that waits at a queue of its team, with its push or pop last in the order of arrival, and the transfers that this sets in
motion (spec 10 R254). -/
def atQueue (f : Iss → Team → Team) (x : Iss) (s : State) : State :=
  match s.teamIdx x.g.grid x.g.team with
  | none => x.completed s .none
  | some ti =>
    x.stays (State.queueServe { s.modGroup x.gi (fun g => { g with wait := .queue }) with teams := s.teams.modify ti (f x) } ti
      (num x x.e.sa) 1024)

end Sys2Proof.Claims

/-- The forms of the copy engines check the alignment of their addresses and queue their operations. -/
def Obligations.Copies : Prop :=
  Claims.Copies .xcopy 0xB0 4
    (fun x => [addrIn x (spaceOf (x.e.ctlF 127 125)) x.e.sa, addrIn x (spaceOf (x.e.ctlF 124 122)) x.e.sb])
    (fun x s => if num x x.e.sc = 0 then nothing .xc x s else queues .xc (fun x _ => .copy (spaceOf (x.e.ctlF 127 125))
      (spaceOf (x.e.ctlF 124 122)) (addrIn x (spaceOf (x.e.ctlF 127 125)) x.e.sa) (addrIn x (spaceOf (x.e.ctlF 124 122)) x.e.sb)
      (num x x.e.sc)) x s)
  ∧ CopiesRegisters
  ∧ Claims.Copies .xgath 0xB1 64 (fun x => [addrIn x (if x.e.ctlF 127 127 = 1 then .s else .g) x.e.sa])
    (queues .xc fun x _ => .gather (addrIn x (if x.e.ctlF 127 127 = 1 then .s else .g) x.e.sa) (x.e.ctlF 127 127 = 1)
      (x.e.ctlF 126 126 = 1) (x.e.ctlF 125 125 = 1) (num x x.e.sb) (num x x.e.sc))
  ∧ Claims.Copies .xchain 0xB2 64 (fun x => [x.pair x.e.sa x.ul]) (queues .xc fun x _ => .walk (x.pair x.e.sa x.ul) 0)
  ∧ Claims.Copies .boomld 0xC5 4
    (fun x => [(x.word x.e.sa x.ul).setWidth 64, addrIn x (if x.e.ctlF 127 127 = 1 then .s else .g) x.e.sb])
    (fun x s => if num x x.e.sc = 0 then nothing .xc x s else queues .xc (fun x _ => .boomld (x.word x.e.sa x.ul)
      (if x.e.ctlF 127 127 = 1 then .s else .g) (addrIn x (if x.e.ctlF 127 127 = 1 then .s else .g) x.e.sb) (num x x.e.sc)) x s)

/-- Rendezvous, Stage queues, the heap engine and register blocks: a group waits in the order of arrival, or hands its request to the
heap engine; RGIVE gives the group's highest blocks to a pool, those of a role from 16 on to none (log 27), and RCLAIM waits for blocks
of its own. -/
def Obligations.TeamResources : Prop :=
  Claims.RendezvousQueues
  ∧ Does .qpush 0xB4 0 (atQueue fun x t =>
      let val (i : Nat) : W32 := if x.e.u then x.word x.e.sb x.ul else if x.qual.getLsbD i then x.word x.e.sb i else 0
      { t with pushWait := t.pushWait ++ [{ g := x.gi, q := num x x.e.sa, val := (List.range x.g.width).map val }] })
  ∧ Does .qpop 0xB5 0 (atQueue fun x t => { t with popWait := t.popWait ++
      [{ g := x.gi, q := num x x.e.sa, lanes := x.qual, dst := x.e.dst, nw := x.e.nw }] })
  ∧ Does .halloc 0xB6 0 (fun x s =>
      let dst : Option Nat := match x.e.dst, x.e.nw with
        | .s k, false => some k.val
        | _, _ => none
      x.completed (s.addOp x.gi (x.op (some .hp) (.halloc (x.word x.e.sa x.ul) dst (outReg x.e.sb)) []
        (((dst.map fun k => [Res.s k, Res.s (k + 1)]).getD []) ++ [.s (outReg x.e.sb)]))) .none)
  ∧ Does .hfree 0xB7 0 (queues .hp fun x _ => .hfree (x.pair x.e.sa x.ul))
  ∧ DoesIf .rgive 0xB8 0 (fun x s => ∃ ti, s.teamIdx x.g.grid x.g.team = some ti) (fun x s =>
      let n := num x x.e.sb
      let r := num x x.e.sa
      let s1 := s.setGroup x.gi { x.g with vregs := x.g.vregs.take (x.g.vregs.length - 8 * n) }
      let give (t : Team) : Team :=
        let h := t.half x.g.half
        if r < 16 then t.setHalf x.g.half { h with pools := h.pools.modify (16 * x.g.quad + r) (· + n) } else t
      let ti := (s.teamIdx x.g.grid x.g.team).getD 0
      x.completed (State.claimServe { s1 with teams := s.teams.modify ti give } ti s.groups.length) .none)
  ∧ DoesIf .rclaim 0xB9 0 (fun x s => ∃ ti, s.teamIdx x.g.grid x.g.team = some ti) (fun x s =>
      let ask (t : Team) : Team := { t with claims := t.claims ++ [{ g := x.gi, n := num x x.e.sa }] }
      let ti := (s.teamIdx x.g.grid x.g.team).getD 0
      x.stays (State.claimServe { s.setGroup x.gi { x.g with wait := .regs } with teams := s.teams.modify ti ask } ti
        s.groups.length))

namespace Sys2Proof.Claims

/-- A queue with an operation that arrives in a cycle: behind those that came earlier, and before those of the same cycle of a greater
rank. -/
def joined (q : Queued) (l : List Queued) : List Queued :=
  let stays (p : Queued) : Bool := !(p.at_ = q.at_ && q.rank < p.rank)
  l.takeWhile stays ++ q :: l.dropWhile stays

/-- An operation added last of its group's, and queued at its core's matrix engine: a lower quadrant goes first among those of one cycle
(spec 11 R263). -/
def atEngine (x : Iss) (s : State) (o : Op) : State :=
  (s.addOp x.gi o).modCore x.g.core fun c =>
    { c with mxq := joined { g := x.gi, op := x.g.opSeq, at_ := s.cycle, rank := x.g.quad } c.mxq }

/-- An operation added last of its group's, and queued at the NTT unit of its core's pair: the even core goes first among those of one
cycle (spec 11 R268). -/
def atUnit (x : Iss) (s : State) (o : Op) : State :=
  (s.addOp x.gi o).modCore (x.g.core / 2 * 2) fun c =>
    { c with ntt := joined { g := x.gi, op := x.g.opSeq, at_ := s.cycle, rank := x.g.core % 2 } c.ntt }

/-- A matrix form with operands (spec 11 R260): a marker in a register of A in a qualifying lane traps UNINIT, then a misaligned
address traps, else r. -/
def MatrixForm (mk : Enc → Instr) (opc : Nat) (r : Iss → State → State) : Prop :=
  ∀ (e : Enc) (s : State) (g : Group), s.groups[s.cur]? = some g → (s.iss g opc 0 e).clear s = true →
    let x := s.iss g opc 0 e
    let marked := x.aRegs.find? fun k => (lanesOf x.qual g.width).any fun i => g.marked k i
    let a := x.mxArgs
    let bad32 := [a.aAddr.setWidth 64, a.bAddr.setWidth 64].find? fun (v : W64) => v.toNat % 32 != 0
    (∀ k, marked = some k → exec (mk e) s = .next (x.trapped s 0x02 0 (BitVec.ofNat 64 k)))
    ∧ (∀ v, marked = none → bad32 = some v → exec (mk e) s = .next (x.trapped s 0x03 0 v))
    ∧ (marked = none → bad32 = none → a.scAddr.toNat % 16 ≠ 0 → exec (mk e) s = .next (x.trapped s 0x03 0 (a.scAddr.setWidth 64)))
    ∧ (marked = none → bad32 = none → a.scAddr.toNat % 16 = 0 → exec (mk e) s = .next (r x s))

/-- The state with the cluster of a core in a burst of matrix forms, counted as event 11 (spec 11 R264, 19 R343). -/
def burst (x : Iss) (s : State) : State :=
  ((s.modCluster (x.g.core / 36) (x.g.core % 36 / 4) fun c => { c with lastMx := s.cycle }).countEv x.gi 11 1)

/-- MXPAIR waits in its half's list of the team until it is paired. -/
def pairs (x : Iss) (s : State) : State :=
  let hold : List Res := match x.e.dst, x.e.nw with
    | .s k, false => [.s k]
    | _, _ => []
  let s1 := s.addOp x.gi (x.op (some .mx) (.mxpair x.mxArgs x.g.half) [] hold (x.aRegs.map Res.v))
  let w : PairWait := { g := x.gi, op := x.g.opSeq, at_ := s.cycle, paired := false, reissued := !x.g.redo.isEmpty }
  x.stays (burst x ((s1.modGroup x.gi fun g => { g with wait := .pair }).modTeam x.g fun t =>
    if x.g.half then { t with pairOdd := t.pairOdd ++ [w] } else { t with pairEven := t.pairEven ++ [w] }))

/-- The register that takes an operation's status is held until it completes. -/
def status (x : Iss) : List Res :=
  match x.e.dst, x.e.nw with
  | .s k, false => [.s k]
  | _, _ => []

/-- S or G, as a bit of CTL selects. -/
def side (x : Iss) (bit : Nat) : Space := if x.e.ctlF bit bit = 1 then .s else .g

/-- Where the bytes of ranges that a form reads at its issue lie, one range after the other. -/
def IssueReads : Prop :=
  ∀ (x : Iss) (s t : State) (rs : List Rng) (ps : List (List (Place × Nat))), s.issuePlaces x rs = (t, .ok ps) →
    ps.length = rs.length ∧ ∀ (i : Nat) (r : Rng) (q : List (Place × Nat)), rs[i]? = some r → ps[i]? = some q →
      ∃ u v, State.placeRange u x.gi x.g false .load r.1 r.2.1 r.2.2 = (v, q, none)

/-- The bytes at some places. -/
def bytesAt (s : State) (ps : List (Place × Nat)) : List Byte := ps.flatMap fun q => s.readAt q.1 q.2

/-- The state in which a form reads what it needs at its issue: the requests are charged as a load's are (spec 18 R326; log 42), and the
group's own accesses that come before it are performed (04 R124; log 10). -/
def atIssue (x : Iss) (s : State) (ps : List (Place × Nat)) : State := (s.charge 0 (devRanges ps)).settleFor x.gi false ps

/-- BMUL (spec 11 R269): the three headers are read at issue; factors of at most NTTHR limbs go to the matrix engine, for whose queue
they wait while it is full (R263), others to the NTT unit. -/
def Multiplies : Prop :=
  ∀ (e : Enc) (s s1 : State) (g : Group), s.groups[s.cur]? = some g → (s.iss g 0xC6 0 e).clear s = true →
    let x := s.iss g 0xC6 0 e
    let d := addrIn x (side x 127) e.sa
    let a := addrIn x (side x 126) e.sb
    let b := addrIn x (side x 125) e.sc
    let at_ := (s.settlePoison s.cur .load).issuePlaces x [(side x 127, d, 16), (side x 126, a, 16), (side x 125, b, 16)]
    (∀ v ∈ [d, a, b], v.toNat % 16 = 0) →
    (∀ f, at_ = (s1, .error f) → exec (.bmul e) s = .next (faulted x s1 .load f))
    ∧ ∀ p q r, at_ = (s1, .ok [p, q, r]) →
      let ps := p ++ q ++ r
      (s1.held 0 (devRanges ps) = true → exec (.bmul e) s = .next (retries x s1 17 (demands (devRanges ps))))
      ∧ (s1.held 0 (devRanges ps) = false →
        let t := atIssue x s1 ps
        let ah := hdrOf (bytesAt t q)
        let bh := hdrOf (bytesAt t r)
        let school := ah.len.toNat ≤ g.ntthr.toNat ∧ bh.len.toNat ≤ g.ntthr.toNat
        let o := x.op (some .nt) (.bmul d a b (side x 127) (side x 126) (side x 125) (hdrOf (bytesAt t p)) ah bh
          (e.ctlF 124 122) (e.ctlF 121 117) school) [] (status x)
        (school → t.mxRoom g.core = false → exec (.bmul e) s = .next (retries x s 10 []))
        ∧ (school → t.mxRoom g.core = true → exec (.bmul e) s = .next (x.completed (atEngine x t o) .none))
        ∧ (¬ school → exec (.bmul e) s = .next (x.completed (atUnit x t o) .none)))

/-- KSWITCH (spec 11 R271, R272): both headers are read at issue; unequal key numbers trap KEYMISMATCH. -/
def SwitchesKeys : Prop :=
  ∀ (e : Enc) (s s1 : State) (g : Group), s.groups[s.cur]? = some g → (s.iss g 0xC9 0 e).clear s = true →
    let x := s.iss g 0xC9 0 e
    let c : W64 := (x.word e.sa x.ul).setWidth 64
    let k := x.pair e.sb x.ul
    let at_ := (s.settlePoison s.cur .load).issuePlaces x [(.s, c, 64), (.g, k, 64)]
    c.toNat % 64 = 0 → k.toNat % 64 = 0 →
    (∀ f, at_ = (s1, .error f) → exec (.kswitch e) s = .next (faulted x s1 .load f))
    ∧ ∀ p q, at_ = (s1, .ok [p, q]) →
      (s1.held 0 (devRanges (p ++ q)) = true → exec (.kswitch e) s = .next (retries x s1 17 (demands (devRanges (p ++ q)))))
      ∧ (s1.held 0 (devRanges (p ++ q)) = false →
        let t := atIssue x s1 (p ++ q)
        let ch := bytesAt t p
        let kh := bytesAt t q
        (wordAt ch 1 ≠ wordAt kh 0 → exec (.kswitch e) s = .next (x.trapped t 0x07 0 (wordAt kh 0 ++ wordAt ch 1)))
        ∧ (wordAt ch 1 = wordAt kh 0 →
          exec (.kswitch e) s = .next (x.completed (atUnit x t (x.op (some .nt) (.kswitch c k ch kh) [] (status x))) .none)))

/-- NTT and INTT queue the transform of 2^LOGN words with the root and PFORM as they stand (spec 11 R270). -/
def transforms (inv : Bool) (x : Iss) (s : State) : State :=
  x.completed (atUnit x s (x.op (some .nt) (.ntt inv (addrIn x (side x 122) x.e.sa) (addrIn x (side x 121) x.e.sb) (side x 122)
    (side x 121) (x.e.ctlF 127 123) (x.pair x.e.sc x.ul) x.g.pform))) .none

/-- LNEST (spec 06 R173, 11 R274) queues its nest at the stream engine, with base addresses, strides and PFORM as they stand. -/
def Nests : Prop :=
  ∀ (e : NestEnc) (s : State) (g : Group), s.groups[s.cur]? = some g → nestStall s.cur g e s = 0 → g.due = [] →
    nestIssueWhy g e = [] →
    exec (.lnest e) s = .next (State.issuedNest
      ((s.addOp s.cur { id := 0, cls := some .ln, pc := g.pc, word := nestBits e, phase := .queued, lands := [], hold := [],
                        holdW := [], fault := none,
                        body := .nest e (g.nestAddr e 0) (g.nestAddr e 1) (g.nestAddr e 2) (g.nestSteps e) g.pform }).modGroup s.cur
        fun h => { h with pc := nextPc g.pc 32, since := s.cycle, chain := none }) s.cur g)

end Sys2Proof.Claims

/-- The matrix forms: operands are read at issue, and the operation joins its core's queue; MXPAIR waits for its partner. -/
def Sys2Proof.Claims.MatrixForms : Prop :=
  MatrixForm .mxmac 0xC0 (fun x s =>
    x.completed (burst x (atEngine x s (x.op (some .mx) (.mxmac x.mxArgs) [] [] (x.aRegs.map Res.v)))) .none)
  ∧ MatrixForm .mxpair 0xC1 pairs
  ∧ DoesIf .mxrd 0xC2 0 (fun x _ => ∀ i ∈ x.readers, (x.word x.e.sa i).toNat % 4 = 0) (fun x s =>
      let offs := x.readers.map fun i => (i, (x.word x.e.sa i).toNat)
      x.completed (match x.e.dst, x.e.nw with
        | .v k, false => atEngine x s (x.op (some .mx) (.mxrd offs (x.e.sb = .int 1) k) [] [.v k])
        | _, _ => atEngine x s (x.op (some .mx) (.mxrd offs (x.e.sb = .int 1) 0))) .none)
  ∧ DoesIf .mxwr 0xC3 0 (fun x _ => ∀ i ∈ x.readers, (x.word x.e.sa i).toNat % 4 = 0) (fun x s =>
      x.completed (atEngine x s (x.op (some .mx) (.mxwr (x.readers.map fun i => ((x.word x.e.sa i).toNat, x.word x.e.sb i))))) .none)
  ∧ ∀ (e : Enc) (s : State) (g : Group) (t : Fin 8), s.groups[s.cur]? = some g → (s.iss g 0xC4 0 e).clear s = true → e.dst = .a t →
      exec (.mxz e) s = .next ((s.iss g 0xC4 0 e).completed
        (atEngine (s.iss g 0xC4 0 e) s ((s.iss g 0xC4 0 e).op (some .mx) (.mxz t (e.sa = .int 1)))) .none)

/-- Carry resolution, products of big numbers, transforms, key switches, CRT and loop nests queue their operations. -/
def Obligations.NumberEngines : Prop :=
  DoesIf .cres 0x9E 0 (fun x _ => (addrIn x (side x 124) x.e.sa).toNat % 16 = 0) (fun x s =>
    x.completed (s.addOp x.gi (x.op (some .mx) (.cres (addrIn x (side x 124) x.e.sa) (side x 124) x.e.ctl (num x x.e.sb)
      (num x x.e.sc)) [] (status x))) .none)
  ∧ IssueReads ∧ Multiplies
  ∧ Claims.Copies .ntt 0xC7 8 (fun x => [addrIn x (side x 122) x.e.sa, addrIn x (side x 121) x.e.sb]) (transforms false)
  ∧ Claims.Copies .intt 0xC8 8 (fun x => [addrIn x (side x 122) x.e.sa, addrIn x (side x 121) x.e.sb]) (transforms true)
  ∧ SwitchesKeys
  ∧ Claims.Copies .xcrt 0xCA 64 (fun x => [x.pair x.e.sa x.ul]) (fun x s =>
      x.completed (atUnit x s (x.op (some .nt) (.xcrt (x.pair x.e.sa x.ul)) [] (status x))) .none)
  ∧ Nests

namespace Sys2Proof.Claims

/-- A Cue operation that has completed at issue is counted and gone (spec 05 R151). -/
def cueCounted (x : Iss) (s : State) : State :=
  State.modGroup (s.addOp x.gi (x.op (some .cq) .plain (phase := .done))) x.gi fun g => g.retire s.cycle

/-- CUEPUSH (spec 11 R277): an unwritten entry register traps UNINIT; the group's accesses are performed, for the push is a release (04
R132); the lanes push in turn; a write to the unrun area that faults is fatal to the context, and what the lanes before it did
stands; lanes that find the die full call the task routine inline, up to CDEPTH, or get FULL. -/
def Pushes : Prop :=
  ∀ (e : Enc) (s : State) (g : Group), s.groups[s.cur]? = some g → (s.iss g 0xD0 0 e).clear s = true →
    let x := s.iss g 0xD0 0 e
    let r := (cueCounted x (s.settleAll s.cur)).pushLanes x x.readers
    (∀ k, x.entryMark = some k → exec (.cuepush e) s = .next (x.trapped s 0x02 0 (BitVec.ofNat 64 k)))
    ∧ (x.entryMark = none → r.2.2 = false →
        exec (.cuepush e) s = .next (x.stays (r.1.contextFatal g.ctx dispatcherRing noSlot 0x84)))
    ∧ (x.entryMark = none → r.2.2 = true → r.2.1 = [] → exec (.cuepush e) s = .next (x.completed r.1 .none))
    ∧ (x.entryMark = none → r.2.2 = true → r.2.1 ≠ [] → g.inline.length < g.cdepth.toNat →
        exec (.cuepush e) s = .next (x.left (r.1.inlineCall x r.2.1)))
    ∧ (x.entryMark = none → r.2.2 = true → r.2.1 ≠ [] → g.cdepth.toNat ≤ g.inline.length →
        exec (.cuepush e) s = .next (x.completed (r.2.1.foldl (fun s i => s.pushResult x i 0 0x30) r.1) .none))

/-- CUEPOP (spec 11 R277): the task in flight ends; the lanes pop in turn; where none of them waits the entries and statuses are written
at once and a task is in flight if one was taken; else the group waits. One that a restored group reissues serves the lanes that are
left, and its task stays in flight (05 R152). -/
def Pops : Prop :=
  ∀ (e : Enc) (s : State) (g : Group), s.groups[s.cur]? = some g → (s.iss g 0xD1 0 e).clear s = true →
    let x := s.iss g 0xD1 0 e
    let o := x.op (some .cq) .plain [] x.popHold [] .started
    let lanes := if g.cueLeft = 0 then x.readers else lanesOf g.cueLeft g.width
    let s0 := s.modGroup s.cur fun h => { h with task := h.task && g.cueLeft != 0, cueLeft := 0 }
    let r := s0.popLanes x o lanes [] false
    let t := r.1.modGroup s.cur fun h => { h with task := h.task || r.2.2 }
    ((∀ p ∈ r.1.cue.pops, p.g ≠ s.cur) →
      exec (.cuepop e) s = .next (x.completed ((cueCounted x t).modGroup s.cur fun h => r.2.1.foldl Group.land h) .none))
    ∧ ((∃ p ∈ r.1.cue.pops, p.g = s.cur) →
      exec (.cuepop e) s = .next (x.stays (((t.addOp s.cur { o with lands := r.2.1 }).modGroup s.cur fun h =>
        { h with wait := .cue }).cueSettle g.grid)))

/-- RESADD (spec 05 R147): the sum clamped to 64 bits, and closing begun where it is below TOL while the heap is open; the group's
accesses are performed first, for it is a release (05 R145). -/
def Residual : Prop :=
  ∀ (e : Enc) (s : State) (g : Group) (r : Grid), s.groups[s.cur]? = some g → (s.iss g 0xD4 0 e).clear s = true →
    let x := s.iss g 0xD4 0 e
    let out (t : State) (w : W32) : State := match e.dst, e.nw with
      | .s k, false => t.modGroup s.cur fun h => h.setS k w
      | _, _ => t
    let v : Int := max (-2 ^ 63) (min (r.resid.toInt + (x.pair e.sa x.ul true).toInt) (2 ^ 63 - 1))
    let t := cueCounted x (s.settleAll s.cur)
    let added := t.modGrid g.grid fun q => { q with resid := BitVec.ofInt 64 v }
    s.grid? g.grid = some r →
    (s.cue.owner ≠ some g.grid → exec (.resadd e) s = .next (x.completed (out t 0x35) .none))
    ∧ (s.cue.owner = some g.grid → r.cuestate = 2 → exec (.resadd e) s = .next (x.completed (out t 0x33) .none))
    ∧ (s.cue.owner = some g.grid → r.cuestate ≠ 2 → ¬ (r.cuestate = 0 ∧ v < r.tol.toInt) →
        exec (.resadd e) s = .next (x.completed (out added 0) .none))
    ∧ (s.cue.owner = some g.grid → r.cuestate = 0 → v < r.tol.toInt →
        exec (.resadd e) s = .next (x.completed (out (added.beginClosing g.grid) 0) .none))

end Sys2Proof.Claims

/-- The Cue forms: pushes, pops, gain revisions and residuals, before which accesses of memory alone are made; GROW raises the grid's
team count and returns the old one. -/
def Sys2Proof.Claims.CueForms : Prop :=
  Pushes ∧ Pops ∧ Residual
  ∧ Does .gainadd 0xD2 0 (fun x s => x.completed ((cueCounted x s).reviseLanes x
      (fun delta gain => BitVec.ofInt 32 (min (max ((gain.toNat : Int) + delta.toInt) 0) 0xFFFFFFFF)) x.readers) .none)
  ∧ Does .gainset 0xD3 0 (fun x s => x.completed ((cueCounted x s).reviseLanes x (fun gain _ => gain) x.readers) .none)
  ∧ (∀ (s : State) (gi : Nat), (s.settleAll gi).grids = s.grids ∧ (s.settleAll gi).cue = s.cue)
  ∧ ∀ (e : Enc) (s : State) (g : Group) (r : Grid), s.groups[s.cur]? = some g → (s.iss g 0xD5 0 e).clear s = true →
      s.grid? g.grid = some r →
      let x := s.iss g 0xD5 0 e
      let n := x.word e.sa x.ul
      exec (.grow e) s = .next (x.completed (State.modGroup
        (if r.kobj.persistent then s else s.modGrid g.grid fun q => { q with gcnt := if q.gcnt < n then n else q.gcnt })
        s.cur fun h => match e.dst, e.nw with
          | .s k, false => (h.setS k r.gcnt).setS (k + 1) (if r.kobj.persistent then 0x35 else 0)
          | _, _ => h) .none)

/-- The order of the heap (spec 05 R142, R143). A pop waits exactly where its die and the dies of the heap hold no entry. One that is not
strict takes its home shard's top where twice its gain is at least the greatest of the die; any other pop of a die that holds an
entry takes the die's first: the greatest gain, the earliest pushed among equals; where the die holds none it takes the first entry
of the die of the heap with the greatest gain, of the lowest number among equals. The dies of a heap rise, at admission and after a
restore. -/
def Obligations.CueOrder : Prop :=
  (∀ (c : Cue) (die home : Nat) (strict : Bool), home < 8 →
    let none_ (d : Nat) : Prop := ∀ k < 8, c.entries d k = []
    let first (d : Nat) (e : CueEntry) : Prop := ∀ k < 8, ∀ y ∈ c.entries d k, y.gain < e.gain ∨ (y.gain = e.gain ∧ e.stamp ≤ y.stamp)
    let top (e : CueEntry) : Prop := ∀ y ∈ c.entries die home, y.gain < e.gain ∨ (y.gain = e.gain ∧ e.stamp ≤ y.stamp)
    let near (e : CueEntry) : Prop := ∀ k < 8, ∀ y ∈ c.entries die k, y.gain.toNat ≤ 2 * e.gain.toNat
    (c.select die home strict = none ↔ none_ die ∧ ∀ q ∈ c.dies, none_ q)
    ∧ ∀ (d sh : Nat) (e : CueEntry), c.select die home strict = some (d, sh, e) →
      e ∈ c.entries d sh ∧ sh < 8
      ∧ (strict = false → (∃ h ∈ c.entries die home, top h ∧ near h) → d = die ∧ sh = home ∧ top e)
      ∧ (¬ none_ die → (strict = true ∨ ∀ h ∈ c.entries die home, top h → ¬ near h) → d = die ∧ first die e)
      ∧ (none_ die → d ∈ c.dies ∧ first d e ∧ (∀ q ∈ c.dies, ∀ k < 8, ∀ y ∈ c.entries q k, y.gain ≤ e.gain)
          ∧ (c.dies.Pairwise (· < ·) → ∀ q ∈ c.dies, q < d → ∀ k < 8, ∀ y ∈ c.entries q k, y.gain < e.gain)))
  ∧ ∀ (s : State) (id : W32), (s.ownCue id).cue.dies.Pairwise (· < ·)
      ∧ (s.cue.owner = some id → (s.spreadCue id).cue.dies.Pairwise (· < ·))

namespace Sys2Proof.Claims

/-- SKLOOK (spec 11 R281): a marked register of the line traps UNINIT; the line is read at issue, from registers or from Stage, and the
group waits for the lookup. -/
def LooksUp : Prop :=
  ∀ (e : Enc) (s : State) (g : Group), s.groups[s.cur]? = some g → (s.iss g 0xD6 0 e).clear s = true →
    let x := s.iss g 0xD6 0 e
    let hold : List Res := (match e.dst, e.nw with
        | .s k, false => [.s k, .s (k + 1), .s (k + 2), .s (k + 3)]
        | _, _ => []) ++ (match e.sb with
        | .s k => [.s k]
        | _ => [])
    let waits (s : State) (line : List Byte) : State :=
      x.stays ((s.addOp x.gi (x.op (some .sk) (.sklook line) [] hold)).modGroup x.gi fun h => { h with wait := .stock })
    (∀ k : Fin 256, e.sa = .v k →
      let marked := ((List.range (64 / g.width)).map fun j => k.val + j).find? fun r => (List.range g.width).any fun i => g.marked r i
      (∀ r, marked = some r → exec (.sklook e) s = .next (x.trapped s 0x02 0 (BitVec.ofNat 64 r)))
      ∧ (marked = none → exec (.sklook e) s = .next (waits s
          (bytesOf ((List.range (64 / g.width)).flatMap fun j => (List.range g.width).map fun i => g.v (k + j) i)))))
    ∧ ∀ (k : Fin 128) (s1 : State), e.sa = .s k →
      let a : W64 := (x.word e.sa x.ul).setWidth 64
      let at_ := (s.settlePoison s.cur .load).issuePlaces x [(.s, a, 256)]
      a.toNat % 16 = 0 →
      (∀ f, at_ = (s1, .error f) → exec (.sklook e) s = .next (faulted x s1 .load f))
      ∧ ∀ ps, at_ = (s1, .ok [ps]) → s1.held 0 (devRanges ps) = false →
          exec (.sklook e) s = .next (waits (atIssue x s1 ps) (bytesAt (atIssue x s1 ps) ps))

/-- The 128 bits of a name in a quad. -/
def name (x : Iss) (a : Src) : Name := BitVec.ofNat 128 (quad x a x.ul)

/-- A Stock form that queues its operation, whose status register is held until it completes (spec 11 R282). -/
def stocks (body : Iss → OpBody) (more : Iss → List Res) (x : Iss) (s : State) : State :=
  x.completed (s.addOp x.gi (x.op (some .sk) (body x) [] (status x ++ more x))) .none

/-- ROOTCAS (spec 04 R116, 11 R283): one atomic step on a root cell of 16 bytes. A new name that is not live, and is not the null name,
gives STOCK_ABSENT; a cell that differs from the compare name CHANGED; else the cell takes the new name. The old name and the
status land when it completes. The step is made at the issue (log 10), after the group's earlier accesses of the cell, and where it
succeeds after all of them, for it is then a release (04 R124). -/
def SwapsRoot : Prop :=
  ∀ (e : Enc) (s s1 : State) (g : Group) (k : Fin 128) (p : Place), s.groups[s.cur]? = some g → (s.iss g 0xDB 0 e).clear s = true →
    e.dst = .s k → e.nw = false →
    let x := s.iss g 0xDB 0 e
    let a := x.pair e.sa x.ul
    let new := name x e.sc
    a.toNat % 16 = 0 → (s.settlePoison s.cur .atomic).resolve s.cur g false .atomic .g a 16 = (s1, .ok p) →
    let rs := (p.devBytes 16).toList
    (s1.held 0 rs = true → exec (.rootcas e) s = .next (retries x s1 17 (demands rs))) ∧ (s1.held 0 rs = false →
    let t := (s1.charge 0 rs).settleFor s.cur false [(p, 16)]
    let old : BitVec 128 := BitVec.ofNat 128 (leNat (t.readAt p 16))
    let st := e.ctlF 127 121
    let ends (t : State) (w : W32) : State := x.completed (t.addOp s.cur (x.op (some .ld) .plain
      [.s k (old.extractLsb' 0 32), .s (k + 1) (old.extractLsb' 32 32), .s (k + 2) (old.extractLsb' 64 32),
       .s (k + 3) (old.extractLsb' 96 32), .s st w] [.s k, .s (k + 1), .s (k + 2), .s (k + 3), .s st])) .none
    let live : Prop := nameOrd new = 0 ∨ (t.stockLine g.ctx new).isSome = true
    (¬ live → exec (.rootcas e) s = .next (ends t 0x41))
    ∧ (live → old ≠ name x e.sb → exec (.rootcas e) s = .next (ends t 0x42))
    ∧ (live → old = name x e.sb → exec (.rootcas e) s = .next (ends ((t.settleAll s.cur).writeAt p (leBytes 16 new.toNat)) 0)))

end Sys2Proof.Claims

/-- The Stock forms: SKLOOK waits for its lookup, the others queue their operations, and ROOTCAS is one atomic step. -/
def Obligations.StockForms : Prop :=
  LooksUp ∧ SwapsRoot
  ∧ Does .skld 0xD7 0 (fun x s =>
      if x.e.ctlF 127 127 = 1 then
        (if (x.word x.e.sa x.ul).toNat % 16 = 0 then
          stocks (fun x => .skld (name x x.e.sb) (some (x.word x.e.sa x.ul)) 0) (fun _ => []) x s
        else x.trapped s 0x03 0 ((x.word x.e.sa x.ul).setWidth 64))
      else stocks (fun x => .skld (name x x.e.sb) none (x.e.ctlF 126 119))
        (fun x => (List.range (64 / x.g.width)).map fun j => .v (x.e.ctlF 126 119 + j)) x s)
  ∧ Does .skref 0xD8 0 (stocks (fun x => .skref true (name x x.e.sa)) fun _ => [])
  ∧ Does .skunref 0xD9 0 (stocks (fun x => .skref false (name x x.e.sa)) fun _ => [])
  ∧ Claims.Copies .skcopy 0xDA 256 (fun x => [addrIn x (side x 127) x.e.sa])
      (stocks (fun x => .skcopy (addrIn x (side x 127) x.e.sa) (side x 127) (name x x.e.sb) (x.word x.e.sc x.ul)
        (x.e.ctlF 126 124)) fun _ => [])

namespace Sys2Proof.Claims

/-- A group in which nothing but registers, the PC, the chain, age and the events of the cycle that are still to be counted differ. -/
def onlyRegisters (h g : Group) : Prop :=
  h = { g with vregs := h.vregs, sregs := h.sregs, preds := h.preds, exec := h.exec, pc := h.pc, since := h.since, chain := h.chain,
               pend := h.pend }

/-- The registers of a group unchanged, but for those of a list. -/
def registersBut (rs : List Res) (h g : Group) : Prop :=
  (∀ k, Res.v k ∉ rs → h.vregs[k]? = g.vregs[k]?) ∧ (∀ k, k < 126 → Res.s k ∉ rs → h.sregs[k]? = g.sregs[k]?)
  ∧ (∀ k, Res.p k ∉ rs → h.preds[k]? = g.preds[k]?) ∧ (Res.s 126 ∉ rs → Res.s 127 ∉ rs → h.exec = g.exec)

/-- exec as a pair of scalar registers (spec 01 R20). -/
def execPair : List Res := [.s 126, .s 127]

/-- A group that did not trap and does not wait anew: it has had its form's effect, if it was not held for a walker or a budget. -/
def wentOn (h g : Group) : Prop := h.trap = g.trap ∧ h.wait = g.wait

/-- Every group but one as before. -/
def othersStand (s t : State) : Prop := ∀ gj, gj ≠ s.cur → t.groups[gj]? = s.groups[gj]?

/-- A group as before but for what its operations have still to do. -/
def sameButOps (s t : State) (gj : Nat) : Prop :=
  (t.groups[gj]?).map (fun h => { h with ops := [] }) = (s.groups[gj]?).map fun h => { h with ops := [] }

/-- A group as before but for its operations and whether its team is still resident. -/
def sameButExit (s t : State) (gj : Nat) : Prop :=
  (t.groups[gj]?).map (fun h => { h with ops := [], live := true }) = (s.groups[gj]?).map fun h => { h with ops := [], live := true }

/-- Nothing outside the groups, the Reel rings and the record of what each quadrant issued last changes. -/
def onlyGroups (s t : State) : Prop :=
  t = { s with groups := t.groups, rings := t.rings, cores := t.cores }
  ∧ ∃ g i, s.groups[s.cur]? = some g ∧ t.cores = s.cores.modify g.core fun c => { c with issued := c.issued.set g.quad i }

/-- The forms whose only effect is on registers: those of the scalar, mask, predicate, vector, float and modular families, and GETID,
CSRR, LPCR and TSRD. SDIV, SREM and the big-number forms land later or write Stage. -/
def registerForm (opc : Nat) : Bool :=
  [0x13, 0x14, 0x17, 0x1C].contains opc || (0x20 ≤ opc && opc ≤ 0x48 && opc != 0x25 && opc != 0x26)
  || (0x50 ≤ opc && opc ≤ 0x87) || (0xA0 ≤ opc && opc ≤ 0xA3)

/-- The big-number forms that end at their issue. -/
def bigForm (opc : Nat) : Bool := 0x90 ≤ opc && opc ≤ 0x9D && opc != 0x99

/-- The forms that access memory or hand an operation to an engine, and change no register at their issue: their results land later. -/
def queuedForm (opc : Nat) : Bool :=
  [0x25, 0x26, 0x99, 0x9E, 0xAE, 0xAF].contains opc || (0xA4 ≤ opc && opc ≤ 0xAD) || (0xB0 ≤ opc && opc ≤ 0xB3) || opc = 0xB6 || opc = 0xB7
  || opc = 0xC0 || (0xC2 ≤ opc && opc ≤ 0xCA) || (0xD7 ≤ opc && opc ≤ 0xDB)

/-- The forms at whose issue accesses that a group has still to perform may be performed: releases, and those that use bytes at their
issue which such accesses change (spec 04 R124; log 10). -/
def settlingForm (opc : Nat) : Bool :=
  [0x0E, 0x0F, 0x9C, 0x9D, 0xB4, 0xB5, 0xC6, 0xC9, 0xD0, 0xD4, 0xD6, 0xDB].contains opc || (0xA4 ≤ opc && opc ≤ 0xAB)

/-- The other forms that write memory, Stage or Boom at their issue, or may set off what takes a team away: EXIT; the big-number forms,
which may write a spill word; CUEPOP, which may answer the waiting pops of other groups. -/
def storingForm (opc : Nat) : Bool :=
  [0x02, 0x90, 0x91, 0x92, 0x94, 0x95, 0x96, 0x97, 0x98, 0x9A, 0x9B, 0xD1].contains opc

/-- A stored place that lies within one 128-byte line, as every aligned access does (spec 04 R98). -/
def inLine (p : Place × Nat) : Prop := ∀ pa key, p.1 = .dev pa key → pa % 128 + p.2 ≤ 128

/-- Every byte outside those of the stored places reads as before. A byte of device memory in a line that was stored to is compared as
the store's key shows it: under another key the line shows other bytes once it has been stored under this one (spec 04 R117). -/
def unchangedOutside (ps : List (Place × Nat)) (s t : State) : Prop :=
  ∀ q : Place, (∀ p ∈ ps, ∀ i < p.2, q.byteId 0 ≠ p.1.byteId i) →
    (∀ pa key pb kb n, q = .dev pa key → (Place.dev pb kb, n) ∈ ps → pb / 128 = pa / 128 → s.keyNum kb = s.keyNum key) →
    t.readAt q 1 = s.readAt q 1

/-- Device memory, host memory, Stage and Boom as before. -/
def sameMemory (s t : State) : Prop :=
  t.mem = s.mem ∧ t.hostMem = s.hostMem ∧ t.keyTags = s.keyTags ∧ t.keys = s.keys ∧ ∀ (q : Place) (n : Nat), t.readAt q n = s.readAt q n

/-- The same, where teams may have left: those that stay hold what they held. -/
def keptMemory (s t : State) : Prop :=
  t.mem = s.mem ∧ t.hostMem = s.hostMem ∧ t.keyTags = s.keyTags ∧ t.keys = s.keys
  ∧ ∀ u ∈ t.teams, ∃ v ∈ s.teams, v.grid = u.grid ∧ v.id = u.id ∧ ∀ o : Bool, (u.half o).cells = (v.half o).cells
      ∧ (u.half o).boomCells = (v.half o).boomCells

/-- Whether an access of a kind may write. -/
def writes (k : AccKind) : Bool :=
  match k with
  | .load | .clean | .inval => false
  | _ => true

/-- The places that a group's outstanding stores, atomics and REDs have still to write. -/
def pending (s : State) (g : Group) : List (Place × Nat) :=
  g.ops.flatMap fun o => match o.acc? with
    | some a => if writes a.kind then a.todo.map fun t => (s.here g t.place, t.n) else []
    | none => []

/-- No trap of a group is fatal to its context: it has a handler and stands below trap level, or the context stays as it was. -/
def handled (g : Group) (t : State) : Prop := (g.trap = false ∧ g.xbase ≠ 0) ∨ (t.ctx g.ctx).fatal = false

/-- No outstanding Cue operation holds a spill word to be written, as none that a form makes does. -/
def plainPops (s : State) : Prop :=
  ∀ h ∈ s.groups, ∀ o ∈ h.ops, o.cls = some .cq → ∀ l ∈ o.lands, ∀ k w, l ≠ .spill k w

/-- The frame of a form of accesses: at its issue nothing is written, but where one of its places lies in the group's spill window, or the
group has accesses of poisoned lines outstanding; then the bytes outside those places, and those that the group had still to write,
read as before. -/
def AccessesOnly (mk : Enc → Instr) (opc sub : Nat) (k : AccK) (n : Enc → Nat) : Prop :=
  ∀ (e : Enc) (s t : State) (g : Group), canonical s → canonicalTeams s → s.groups[s.cur]? = some g → handled g t →
    exec (mk e) s = .next t →
    let x := s.iss g opc sub e
    let r := (s.settlePoison s.cur k).resolveAll s.cur g k (spc e) (n e) x.addrs
    (x.clear s = false ∨ (misaligned x.addrs (n e)).isSome = true → sameMemory s t)
    ∧ ((∀ s1 ps, r ≠ (s1, .ok ps)) → (s.poison = [] → sameMemory s t)
        ∧ ((∀ p ∈ pending s g, inLine p) → unchangedOutside (pending s g) s t))
    ∧ ∀ s1 ps, r = (s1, .ok ps) →
        (s.poison = [] → (∀ p ∈ ps, g.spills p.2 (n e) = false) → sameMemory s t)
        ∧ ((∀ p ∈ ps.map (fun p => (p.2, n e)) ++ pending s g, inLine p) →
            unchangedOutside (ps.map (fun p => (p.2, n e)) ++ pending s g) s t)

/-- The frame of a form that stores a number as a limb array: header and limbs, and what the group had still to write. -/
def StoresNumber (mk : Enc → Instr) (opc : Nat) (sp : Enc → Space) (addr : Iss → W64) (reg : Enc → Option (Fin 256)) : Prop :=
  ∀ (e : Enc) (s s1 s2 t : State) (g : Group) (k : Fin 256) (ps : List (Place × Nat)) (p : Place), canonical s → canonicalTeams s →
    s.groups[s.cur]? = some g → (s.iss g opc 0 e).clear s = true → reg e = some k → (addr (s.iss g opc 0 e)).toNat % 16 = 0 →
    s.placeRange s.cur g false .store (sp e) (addr (s.iss g opc 0 e) + 16) (4 * (s.limbsOf g k).length) = (s1, ps, none) →
    s1.resolve s.cur g false .store (sp e) (addr (s.iss g opc 0 e)) 16 = (s2, .ok p) →
    (∀ q ∈ ps ++ [(p, 16)] ++ pending s g, inLine q) → exec (mk e) s = .next t →
    unchangedOutside (ps ++ [(p, 16)] ++ pending s g) s t

end Sys2Proof.Claims

/-- The frame of the register forms: where one has its effect nothing but the registers that it writes, the PC, the chain, the group's
age and the events that its performance counters have still to count changes, in its group only. -/
def Sys2Proof.Claims.RegisterFrame : Prop :=
  EveryForm fun i x s g => ∀ t, registerForm x.opc = true → x.clear s = true →
    (x.opc = 0x69 → (∃ k, x.e.dst = .v k) ∨ x.selMarked = none) → exec i s = .next t →
    onlyGroups s t ∧ othersStand s t ∧ t.rings = s.rings
    ∧ ∃ h, t.groups[s.cur]? = some h ∧ onlyRegisters h g ∧ registersBut (writtenRegs x.opc x.sub x.e g.width) h g

/-- The frame of the big-number forms that end at their issue: their destination registers and BFILL's status. BSPILL and BFILL may
perform accesses that the group, or a RED that combines with one of its own, had still to perform. -/
def Sys2Proof.Claims.BigFrame : Prop :=
  EveryForm fun i x s g => ∀ t h, bigForm x.opc = true → x.clear s = true → exec i s = .next t → (t.ctx g.ctx).fatal = false →
    t.groups[s.cur]? = some h → wentOn h g →
    (settlingForm x.opc = false → othersStand s t ∧ onlyRegisters h g)
    ∧ (∀ gj, gj ≠ s.cur → sameButOps s t gj) ∧ onlyRegisters { h with ops := g.ops } g
    ∧ registersBut (writtenRegs x.opc x.sub x.e g.width) h g

/-- The frame of PRIO, SLEEP, CSRW and CSRX: the priority, the wait, the CSR that the form names (and TOL of the grid), and CSRX's
destination. -/
def Sys2Proof.Claims.ControlFrame : Prop :=
  EveryForm fun i x s g => ∀ t, [0x11, 0x12, 0x15, 0x16].contains x.opc = true → x.clear s = true → exec i s = .next t →
    onlyGroups { s with grids := t.grids } t ∧ othersStand s t
    ∧ (t.grids = s.grids ∨ (x.e.csr = 0x015 ∧ 0x15 ≤ x.opc ∧ ∃ v, t.grids = s.grids.map fun r => if r.id = g.grid then { r with tol := v } else r))
    ∧ ∃ h, t.groups[s.cur]? = some h ∧ registersBut (writtenRegs x.opc x.sub x.e g.width) h g
      ∧ (x.opc = 0x11 → onlyRegisters { h with wait := g.wait } g)
      ∧ (x.opc = 0x12 → onlyRegisters { h with prio := g.prio } g)
      ∧ (0x15 ≤ x.opc →
          onlyRegisters { h with pmc := g.pmc, pmsel := g.pmsel, pmovf := g.pmovf, pmctl := g.pmctl, prio := g.prio, cdepth := g.cdepth,
                                 ntthr := g.ntthr, pform := g.pform, strict := g.strict, xbase := g.xbase, xrpc := g.xrpc,
                                 tokwait := g.tokwait } g
          ∧ (∀ k : Nat, x.e.csr ≠ 0x110 + k → h.pmsel[k]? = g.pmsel[k]?) ∧ (x.e.csr ≠ 0x121 → h.pmctl = g.pmctl)
          ∧ (x.e.csr ≠ 0x010 → h.prio = g.prio) ∧ (x.e.csr ≠ 0x011 → h.cdepth = g.cdepth) ∧ (x.e.csr ≠ 0x012 → h.ntthr = g.ntthr)
          ∧ (x.e.csr ≠ 0x013 → h.pform = g.pform) ∧ (x.e.csr ≠ 0x014 → h.strict = g.strict) ∧ (x.e.csr ≠ 0x021 → h.xbase = g.xbase)
          ∧ (x.e.csr ≠ 0x025 → h.xrpc = g.xrpc) ∧ (x.e.csr ≠ 0x031 → h.tokwait = g.tokwait)
          ∧ (∀ k : Nat, x.e.csr ≠ 0x100 + k → h.pmc[k]? = g.pmc[k]?) ∧ (x.e.csr ≠ 0x120 → h.pmovf = g.pmovf))

/-- The frame of the branches and of divergence: the PC, the divergence state with exec, a link or a mask in the destination. A RET that
ends an inline call also writes the two results that its CUEPUSH names (spec 12 R299). -/
def Sys2Proof.Claims.BranchFrame : Prop :=
  EveryForm fun i x s g => ∀ t, 0x03 ≤ x.opc → x.opc ≤ 0x0D → x.clear s = true → exec i s = .next t →
    ((x.opc ≠ 0x08 ∨ g.inline = []) → onlyGroups s t ∧ othersStand s t
      ∧ ∃ h, t.groups[s.cur]? = some h
        ∧ onlyRegisters { h with parked := g.parked, served := g.served, stored := g.stored, lanePC := g.lanePC, yc := g.yc } g
        ∧ registersBut (writtenRegs x.opc x.sub x.e g.width ++ execPair) h g)
    ∧ ∀ h, x.opc = 0x08 → g.inline ≠ [] → (t.ctx g.ctx).fatal = false → t.groups[s.cur]? = some h → wentOn h g →
        othersStand s t ∧ onlyRegisters { h with inline := g.inline } g ∧ (h.inline = g.inline ∨ h.inline = g.inline.drop 1)
        ∧ ((∀ k : Nat, h.vregs[k]? = g.vregs[k]?)
          ∨ ∃ j s1 p, g.inline.head? = some j ∧ s.resolve s.cur g false .fetch .g j.at_ 8 = (s1, .ok p)
            ∧ ∀ k : Nat, (let e := encOf (BitVec.ofNat 256 (leNat (s1.readAt p 8)))
                (∀ d : Fin 256, e.dst = .v d → e.nw = false → k ≠ d.val ∧ k ≠ d.val + 1) ∧ ∀ d : Fin 256, e.sb = .v d → k ≠ d.val) →
                h.vregs[k]? = g.vregs[k]?)

/-- The frame of EXIT: while lanes run or are parked only the divergence state changes; when none is left the group is gone, which may
wake groups of its team, answer waiting pops and take its team away. No register of any group changes but those of waiting pops. -/
def Sys2Proof.Claims.ExitFrame : Prop :=
  ∀ (e : Enc) (s t : State) (g : Group), s.groups[s.cur]? = some g → (s.iss g 0x02 0 e).clear s = true → exec (.exit e) s = .next t →
    (g.retireLanes.running ||| g.parked ≠ 0 → onlyGroups s t ∧ othersStand s t ∧ ∃ h, t.groups[s.cur]? = some h
      ∧ onlyRegisters { h with parked := g.parked, served := g.served, stored := g.stored, exited := g.exited, lanePC := g.lanePC,
                               yc := g.yc } g
      ∧ registersBut execPair h g)
    ∧ ∀ gj h k, t.groups[gj]? = some h → s.groups[gj]? = some k → (∀ p ∈ s.cue.pops, p.g ≠ gj) →
        registersBut execPair h k ∧ h.acc = k.acc ∧ (gj ≠ s.cur → h.exec = k.exec ∧ h.pc = k.pc)
        ∧ (gj ≠ s.cur → h = { k with wait := h.wait, since := h.since, live := h.live, ops := h.ops })

/-- The frame of the forms whose results land later: at issue no register, predicate, accumulator or CSR of the group changes but the
counters of operations and what its performance counters have still to count; of other groups at most what their REDs have still to do. -/
def Sys2Proof.Claims.QueuedFrame : Prop :=
  EveryForm fun i x s g => ∀ t h, queuedForm x.opc = true → x.clear s = true → exec i s = .next t → t.groups[s.cur]? = some h →
    (t.ctx g.ctx).fatal = false → wentOn h g →
    (settlingForm x.opc = false → othersStand s t) ∧ (∀ gj, gj ≠ s.cur → sameButOps s t gj)
    ∧ h = { g with ops := h.ops, opSeq := h.opSeq, due := h.due, pc := h.pc, since := h.since, chain := h.chain, pend := h.pend }

/-- The frame of the forms at which a group waits for another agent: MXPAIR and SKLOOK, whose results land later; QPUSH, QPOP, RGIVE and
RCLAIM, which serve in turn the groups that wait in the team's lists and change no other. -/
def Sys2Proof.Claims.WaitingFrame : Prop :=
  (EveryForm fun i x s g => ∀ t h, (x.opc = 0xC1 ∨ x.opc = 0xD6) → x.clear s = true → exec i s = .next t → t.groups[s.cur]? = some h →
    (t.ctx g.ctx).fatal = false → h.trap = g.trap →
    (x.opc = 0xC1 → othersStand s t) ∧ (∀ gj, gj ≠ s.cur → sameButOps s t gj)
    ∧ h = { g with ops := h.ops, opSeq := h.opSeq, wait := h.wait, pend := h.pend })
  ∧ (EveryForm fun i x s g => ∀ t, (x.opc = 0xB4 ∨ x.opc = 0xB5) → x.clear s = true → exec i s = .next t →
    let idle (gj : Nat) : Prop := ∀ u ∈ s.teams, (∀ w ∈ u.pushWait, w.g ≠ gj) ∧ ∀ w ∈ u.popWait, w.g ≠ gj
    (∀ gj, gj ≠ s.cur → idle gj → sameButOps s t gj)
    ∧ (idle s.cur → ∃ h, t.groups[s.cur]? = some h ∧ onlyRegisters { h with ops := g.ops, wait := g.wait } g
        ∧ registersBut (writtenRegs x.opc x.sub x.e g.width) h g))
  ∧ EveryForm fun i x s g => ∀ t, (x.opc = 0xB8 ∨ x.opc = 0xB9) → x.clear s = true → exec i s = .next t →
    let idle (gj : Nat) : Prop := ∀ u ∈ s.teams, ∀ c ∈ u.claims, c.g ≠ gj
    (∀ gj, gj ≠ s.cur → idle gj → t.groups[gj]? = s.groups[gj]?)
    ∧ (idle s.cur → ∃ h, t.groups[s.cur]? = some h ∧ onlyRegisters { h with wait := g.wait } g
        ∧ (∀ k : Nat, h.sregs[k]? = g.sregs[k]?) ∧ (∀ k : Nat, h.preds[k]? = g.preds[k]?) ∧ h.exec = g.exec
        ∧ (x.opc = 0xB8 → h.vregs = g.vregs.take (g.vregs.length - 8 * num x x.e.sb))
        ∧ (x.opc = 0xB9 → g.vregs <+: h.vregs))

/-- The frame of the Cue forms: the registers that the form names, and where CUEPUSH calls the task routine inline the entry's in v0 to
v7, the return address in s112:s113, and exec (spec 12 R299). Groups with no waiting pop keep their registers and all else but what
their operations have still to do. -/
def Sys2Proof.Claims.CueFrame : Prop :=
  EveryForm fun i x s g => ∀ t, 0xD0 ≤ x.opc → x.opc ≤ 0xD5 → x.clear s = true → exec i s = .next t → (t.ctx g.ctx).fatal = false →
    (2 ≤ x.opc - 0xD0 → x.opc ≠ 0xD4 → othersStand s t)
    ∧ (∀ gj, gj ≠ s.cur → (∀ p ∈ s.cue.pops, p.g ≠ gj) → sameButExit s t gj)
    ∧ ∀ h, t.groups[s.cur]? = some h → h.trap = g.trap → (∀ p ∈ s.cue.pops, p.g ≠ s.cur) →
        (∀ o ∈ g.ops, o.cls = some .cq → o.phase ≠ .started) →
        onlyRegisters { h with ops := g.ops, opSeq := g.opSeq, due := g.due, wait := g.wait, task := g.task, cueLeft := g.cueLeft,
                               inline := g.inline, live := g.live } g
        ∧ (registersBut (writtenRegs x.opc x.sub x.e g.width) h g
          ∨ (x.opc = 0xD0 ∧ h.inline.length = g.inline.length + 1
            ∧ registersBut (writtenRegs x.opc x.sub x.e g.width ++ (List.range 8).map Res.v ++ [.s 112, .s 113] ++ execPair) h g))

/-- Where no trap is fatal, a form that neither stores nor has to perform earlier accesses leaves every byte of device memory, host
memory, Stage, Boom as it is, whether it completes, traps, waits or is held; so does a loop nest. -/
def Sys2Proof.Claims.MemoryFrame : Prop :=
  (EveryForm fun i x s g => ∀ t, storingForm x.opc = false → settlingForm x.opc = false → handled g t → exec i s = .next t →
    sameMemory s t)
  ∧ ∀ (e : NestEnc) (s t : State) (g : Group), s.groups[s.cur]? = some g → handled g t → exec (.lnest e) s = .next t → sameMemory s t

/-- The frame of the storing forms: every byte outside the stored bytes, and those that earlier instructions have still to write,
reads as before. -/
def Sys2Proof.Claims.StoreFrame : Prop :=
  AccessesOnly .ld 0xA4 0 .load esz ∧ AccessesOnly .ldu 0xA5 0 .load esz ∧ AccessesOnly .st 0xA6 0 .store esz
  ∧ AccessesOnly .atomAdd 0xA9 0 .atomic esz ∧ AccessesOnly .atomAnd 0xA9 1 .atomic esz ∧ AccessesOnly .atomOr 0xA9 2 .atomic esz
  ∧ AccessesOnly .atomXor 0xA9 3 .atomic esz ∧ AccessesOnly .atomMin 0xA9 4 .atomic esz ∧ AccessesOnly .atomMax 0xA9 5 .atomic esz
  ∧ AccessesOnly .atomExch 0xA9 6 .atomic esz ∧ AccessesOnly .atomCas 0xA9 7 .atomic esz
  ∧ AccessesOnly .redAdd 0xAB 0 .atomic esz ∧ AccessesOnly .redAnd 0xAB 1 .atomic esz ∧ AccessesOnly .redOr 0xAB 2 .atomic esz
  ∧ AccessesOnly .redXor 0xAB 3 .atomic esz ∧ AccessesOnly .redMin 0xAB 4 .atomic esz ∧ AccessesOnly .redMax 0xAB 5 .atomic esz
  ∧ AccessesOnly .atomcCas 0xAA 0 .atomic (fun _ => 16) ∧ AccessesOnly .atomXadd 0xAA 1 .atomic (fun _ => 16)
  ∧ StoresNumber .stb 0xA8 spc arrayAddr (fun e => match e.dst with | .v k => some k | _ => none)
  ∧ StoresNumber .bspill 0x9C (fun _ => .s) (fun x => (x.word x.e.sa x.ul).setWidth 64) (fun e => match e.sb with | .v k => some k | _ => none)

/-- The frame of accesses that are performed after their issue: each changes the bytes of its own place alone, and the completion of a
load, a store or an atomic at most those that its group had still to write. -/
def Sys2Proof.Claims.PerformFrame : Prop :=
  ∀ (s : State) (gi : Nat) (g : Group), canonical s → canonicalTeams s → s.groups[gi]? = some g →
    (∀ id lane h a t, s.accessOf gi id lane = some (h, a, t) →
      (writes a.kind = false → sameMemory s (s.perform gi id lane))
      ∧ (inLine (s.here g t.place, t.n) → unchangedOutside [(s.here g t.place, t.n)] s (s.perform gi id lane)))
    ∧ ((∀ p ∈ pending s g, inLine p) → unchangedOutside (pending s g) s (s.settleAll gi)
      ∧ ∀ id, g.gone = false → (∀ o ∈ g.ops, ∀ l ∈ o.lands, ∀ k w, l ≠ .spill k w) →
          unchangedOutside (pending s g) s (s.completeMem gi id))

/-- The frame of the other forms that write at their issue. Big-number forms: a spill word. BAR, BARA, LDB, BMUL, KSWITCH and SKLOOK: what the group had still
to write; QPUSH and QPOP: what any group had. BFILL: that and a spill word. ROOTCAS: that and its cell. EXIT and CUEPOP: no byte,
though teams may leave. RESADD: what the group had still to write, then no byte, though teams may leave. CUEPUSH: what the group had still to write, then in turn at most the entries' places in the unrun
area. -/
def Sys2Proof.Claims.EffectFrame : Prop :=
  (EveryForm fun i x s g => ∀ t, canonical s → canonicalTeams s → handled g t → exec i s = .next t →
    let spill : List (Place × Nat) := match x.e.dst with
      | .v k => ((s.spillPlace g k).toList).map fun p => (p, 4)
      | _ => []
    let all := s.groups.flatMap (pending s)
    (storingForm x.opc = true → bigForm x.opc = true → unchangedOutside spill s t ∧ (spill = [] → sameMemory s t))
    ∧ ([0x0E, 0x0F, 0xA7, 0xC6, 0xC9, 0xD6].contains x.opc = true → (∀ p ∈ pending s g, inLine p) → unchangedOutside (pending s g) s t)
    ∧ ((x.opc = 0xB4 ∨ x.opc = 0xB5) → (∀ p ∈ all, inLine p) → unchangedOutside all s t)
    ∧ (x.opc = 0x9D → (∀ p ∈ pending s g, inLine p) → unchangedOutside (spill ++ pending s g) s t)
    ∧ (x.opc = 0xDB → ∀ s1 p, (s.settlePoison s.cur .atomic).resolve s.cur g false .atomic .g (x.pair x.e.sa x.ul) 16 = (s1, .ok p) →
        (∀ q ∈ (p, 16) :: pending s g, inLine q) → unchangedOutside ((p, 16) :: pending s g) s t)
    ∧ (x.opc = 0xDB → x.clear s = true →
        (∀ s1 p, (s.settlePoison s.cur .atomic).resolve s.cur g false .atomic .g (x.pair x.e.sa x.ul) 16 ≠ (s1, .ok p)) →
        (s.poison = [] → sameMemory s t) ∧ ((∀ p ∈ pending s g, inLine p) → unchangedOutside (pending s g) s t))
    ∧ ([0x02, 0xD1].contains x.opc = true → plainPops s → keptMemory s t)
    ∧ (x.opc = 0xD4 → plainPops s → x.clear s = false → sameMemory s t)
    ∧ (x.opc = 0xD4 → plainPops s → x.clear s = true → (∀ p ∈ pending s g, inLine p) →
        unchangedOutside (pending s g) s (s.settleAll s.cur) ∧ keptMemory (s.settleAll s.cur) t)
    ∧ (x.opc = 0xD0 → x.clear s = true → (t.ctx g.ctx).fatal = false →
        (x.entryMark.isSome = true → sameMemory s t)
        ∧ (x.entryMark = none → sameMemory ((cueCounted x (s.settleAll s.cur)).pushLanes x x.readers).1 t)))
  ∧ (∀ (x : Iss) (s : State), sameMemory s (cueCounted x s))
  ∧ ∀ (x : Iss) (s t : State) (lane : Nat) (full : Bool), canonical s → canonicalTeams s → plainPops s →
      s.pushLane x lane = some (t, full) →
      (s.cue.owner ≠ some x.g.grid ∨ s.cueState x.g.grid = 0 → keptMemory s t)
      ∧ ∀ r p, s.grid? x.g.grid = some r → r.cuestate ≠ 0 →
          (r.packet.unrun.toNat + 32 * r.cunrun.toNat) % 128 ≤ 96 →
          s.resolveD .engWrite r.ctx (r.packet.unrun.toNat + 32 * r.cunrun.toNat) = .ok p → inLine (p, 32) →
          unchangedOutside [(p, 32)] s t

/-- The invariant of the memories of teams, pre-empted teams and groups: every step keeps them in canonical form. -/
def Obligations.StepKeepsTeamMemory : Prop :=
  (∀ s t : State, canonicalTeams s → step s = .next t → canonicalTeams t) ∧ canonicalTeams State.reset

namespace Sys2Proof.Claims

/-- An event about an operation that is at hand in a state that p describes: exec answers the state that r gives. -/
def OnOp (ev : Instr) (p : State → Nat → Group → Op → Prop) (r : State → Nat → Group → Op → State) : Prop :=
  ∀ (s : State) (gi : Nat) (g : Group) (o : Op), s.input = .index2 gi o.id → s.groups[gi]? = some g → g.live = true →
    g.op? o.id = some o → p s gi g o → exec ev s = .next (r s gi g o)

/-- An operation whose unit gives it a run ends as the run does, with the status FAULT where it faults. -/
def Ends (ev : Instr) (run : State → Nat → Group → Op → Option Run) (p : State → Nat → Group → Op → Prop) : Prop :=
  ∀ q : Run, OnOp ev (fun s gi g o => run s gi g o = some q ∧ p s gi g o) fun s gi _ o => q.finish s gi o.id (o.status 0x12)

/-- A queued multi-cycle form, or array load, lands; a queued access of lanes completes as AccessesEnd says. It waits until copies into
the registers that it is to write have landed (spec 10 R251). -/
def Lands (ev : Instr) (c : Option Cls) : Prop :=
  OnOp ev (fun s gi _ o => o.cls = c ∧ o.body = .plain ∧ o.phase = .queued ∧ s.unguarded gi o.hold = true)
    (fun s gi _ o => s.finishOp gi o.id o.lands none)
  ∧ OnOp ev (fun s gi _ o => o.cls = c ∧ (∃ a, o.body = .mem a) ∧ o.phase = .queued ∧ s.unguarded gi o.hold = true)
      (fun s gi _ o => s.completeMem gi o.id)
  ∧ OnOp ev (fun s gi _ o => s.unguarded gi o.hold = false) fun s _ _ _ => s

/-- An operation of the NTT unit leaves its pair's queue once it is made. -/
def leavesUnit (g : Group) (gi id : Nat) (t : State) : State := if t.unmade gi id = true then t else t.unitPop g.core gi id

/-- The operation stands at the head of its pair's NTT unit, and has arrived in an earlier cycle. -/
def atHead (s : State) (gi : Nat) (g : Group) (o : Op) : Prop :=
  ∃ q, ((s.cores[g.core / 2 * 2]?).bind fun c => c.ntt.head?) = some q ∧ q.g = gi ∧ q.op = o.id ∧ q.at_ < s.cycle

/-- A state, and what of an operation's requests is charged in advance, by die (spec 18 R326; log 42). -/
abbrev Paid := State × List (Nat × Nat)

/-- Requests of an engine charged to a traffic class at their dies, less what of them is charged already. -/
def charged (cls : Nat) (c : Paid) (rs : List (Nat × Nat)) : Paid :=
  if c.1.capped then rs.foldl (fun c r =>
    let m := min (tagOf c.2 (homeDie r.1)) r.2
    (c.1.charge cls [(r.1, r.2 - m)], c.2.map fun p => if p.1 = homeDie r.1 then (p.1, p.2 - m) else p)) c
  else c

/-- An engine reads a range of a group's address space: the bytes, and the state with the requests charged to a traffic class. -/
def engineReads (s : Paid) (gi : Nat) (g : Group) (cls : Nat) (sp : Space) (a : W64) (n : Nat) (t : Paid) (bs : List Byte) : Prop :=
  ∃ s1 ps, s.1.placeRange gi g true .engRead sp a n = (s1, ps, none) ∧ t = charged cls (s1, s.2) (devRanges ps) ∧ bs = s1.readPlaces ps

/-- An engine writes bytes over a range: where they lie, and the state with them written there in turn. A line of them that the operation
has then written whole, with what it wrote before, has lost its poison (spec 04 R118). -/
def engineWrites (s : Paid) (gi : Nat) (g : Group) (cls : Nat) (sp : Space) (a : W64) (bs : List Byte) (before : List (Nat × Nat))
    (t : Paid) (qs : List (Place × Nat)) : Prop :=
  ∃ s1, s.1.placeRange gi g true .engWrite sp a bs.length = (s1, qs, none)
    ∧ t.2 = (charged cls (s1.writePlaces qs bs, s.2) (devRanges qs)).2
    ∧ t.1 = (charged cls (s1.writePlaces qs bs, s.2) (devRanges qs)).1.clearPoisonOf (before ++ devRanges qs) (devRanges qs)

/-- What an operation of which parts are done wrote in them, as far as lines are poisoned. -/
def wroteBefore (s : State) (gi : Nat) (g : Group) (o : Op) : List (Nat × Nat) :=
  if s.poison.isEmpty then [] else s.rangeBytes gi g o.wrote

end Sys2Proof.Claims

/-- Completions: loads, stores and multi-cycle forms land what they read; copies, matrix operations, the NTT unit, the stream engine,
the heap and the Stock carry out their operation and end as it ends. -/
def Sys2Proof.Claims.OperationsComplete : Prop :=
  Claims.Lands .loadCompletion (some .ld) ∧ Claims.Lands .storeCompletion (some .st)
  ∧ Claims.Lands .multiCycleFormCompletion none
  ∧ (∀ q : Run, Claims.OnOp .copyOperationCompletion
      (fun s gi g o => o.phase = .queued ∧ s.copyWaits gi g o = false ∧ (∀ sp a t k n, o.body ≠ .regIn sp a t k n)
        ∧ copyRun none s gi g o = some q) fun s gi _ o => q.finish s gi o.id [])
  ∧ (∀ (sp : Space) (a : W64) (t k n : Nat) (h : Group) (u : Paid) (bs : List Byte), Claims.OnOp .copyOperationCompletion
      (fun s gi g o => o.phase = .queued ∧ o.body = .regIn sp a t k n ∧ s.groups[t]? = some h ∧ h.gone = false
        ∧ engineReads (s, o.paid) gi g 1 sp a (4 * h.width * n) u bs ∧ s.heldBack u.1 = false)
      fun _ gi _ o => (u.1.modGroup t fun h' => (regLands k h.width (wordsOf bs)).foldl Group.land h').finishOp gi o.id [] none)
  ∧ Claims.OnOp .matrixOperationCompletion (fun s gi _ o => o.phase = .started ∧ s.unguarded gi o.hold = true ∧
      ((∃ a, o.body = .mxmac a) ∨ (∃ a h, o.body = .mxpair a h) ∨ (∃ l f k, o.body = .mxrd l f k) ∨ (∃ l, o.body = .mxwr l)
        ∨ ∃ t w, o.body = .mxz t w)) (fun s gi _ o => s.finishOp gi o.id o.lands none)
  ∧ Claims.Ends .matrixOperationCompletion cresRun (fun _ _ g o => o.phase = .queued ∧ g.mxIdle o.id = true)
  ∧ Claims.Ends .bmulSchoolbookCompletion bmulRun (fun _ _ _ o => o.isMx = true ∧ o.phase = .started)
  ∧ (∀ q : Run, Claims.OnOp .nttUnitOperationCompletion
      (fun s gi g o => o.phase = .queued ∧ unitRun s gi g o = some q ∧ atHead s gi g o)
      fun s gi g o => leavesUnit g gi o.id (q.finish s gi o.id (o.status 0x12)))
  ∧ (∀ q : Run, Claims.OnOp .streamEngineCompletion (fun s gi g o => o.phase = .queued ∧ streamRun s gi g o = some q)
      fun s gi _ o => q.finish s gi o.id [])
  ∧ Claims.Ends .stockOperationCompletion stockRun
      (fun s gi g o => o.phase = .queued ∧ s.stockWaits gi g o = false ∧ s.unguarded gi o.hold = true)
  ∧ (∀ size dst st, Claims.OnOp .heapOperationCompletion (fun _ _ _ o => o.phase = .queued ∧ o.body = .halloc size dst st)
      fun s gi g o => hallocDone s gi g o size dst st)
  ∧ ∀ a, Claims.OnOp .heapOperationCompletion (fun _ _ _ o => o.phase = .queued ∧ o.body = .hfree a)
      fun s gi g o => hfreeDone s gi g o a

namespace Sys2Proof.Claims

/-- The operations that copy n bytes: XCOPY, and BOOMLD into Boom, with their traffic classes (spec 18 R326). -/
def copies (o : Op) (cls : Nat) (dsp : Space) (d : W64) (ssp : Space) (a : W64) (n : Nat) : Prop :=
  (o.body = .copy dsp ssp d a n ∧ cls = 1) ∨ ∃ b : W32, o.body = .boomld b ssp a n ∧ cls = 2 ∧ dsp = .b ∧ d = b.setWidth 64

/-- XCOPY and BOOMLD (spec 10 R249, R250, 11 R267): where source and destination have no byte in common, the destination takes the
bytes of the source. Where budgets are set that is said of a copy of one line at most; of a longer one, whose second line a budget
holds, the first line is copied, and the rest is left to do, with as much of the second charged as the budget allows (18 R326; log
42). -/
def CopyMoves : Prop :=
  ∀ (cls : Nat) (dsp ssp : Space) (d a : W64) (n : Nat) (s1 u : Paid) (bs : List Byte) (qs : List (Place × Nat)),
    let reaches (s : State) (gi : Nat) (g : Group) (o : Op) (m : Nat) : Prop := o.phase = .queued ∧ copies o cls dsp d ssp a n
      ∧ s.copyWaits gi g o = false ∧ engineReads (s, o.paid) gi g cls ssp a m s1 bs ∧ engineWrites s1 gi g cls dsp d bs (wroteBefore s gi g o) u qs
      ∧ s.heldBack u.1 = false
    let apart (s : State) (gi : Nat) (g : Group) (m : Nat) : Prop :=
      ∀ b ∈ s.rangeIds gi g .engWrite dsp d m, b ∉ s.rangeIds gi g .engRead ssp a m
    OnOp .copyOperationCompletion
      (fun s gi g o => reaches s gi g o n ∧ (s.capped = false ∨ (0 < n ∧ n ≤ 128)) ∧ apart s gi g n ∧ apart s1.1 gi g n)
      (fun _ gi _ o => u.1.finishOp gi o.id [] none)
    ∧ ∀ (v w : Paid) (cs : List Byte) (rs : List (Place × Nat)), 128 < n →
      let m := min 128 (n - 128)
      OnOp .copyOperationCompletion
        (fun s gi g o => reaches s gi g o 128 ∧ s.capped = true ∧ apart s gi g n ∧ apart s1.1 gi g 128
          ∧ engineReads u gi g cls ssp (a + 128) m v cs
          ∧ engineWrites v gi g cls dsp (d + 128) cs (wroteBefore s gi g o ++ devRanges qs) w rs ∧ u.1.heldBack w.1 = true
          ∧ (∀ b ∈ v.1.rangeIds gi g .engWrite dsp (d + 128) m, b ∉ v.1.rangeIds gi g .engRead ssp (a + 128) m))
        fun _ gi _ o => State.pay (u.1.modGroup gi fun h => h.modOp o.id fun p => { p with
          body := (match o.body with
            | .copy _ _ _ _ _ => .copy dsp ssp (d + 128) (a + 128) (n - 128)
            | _ => .boomld ((d + 128).setWidth 32) ssp (a + 128) (n - 128)),
          wrote := o.wrote ++ [(dsp, d, 128)], paid := u.2 }) w.1 gi o.id

/-- The word of 8 bytes at place i. -/
def coefficient (bs : List Byte) (i : Nat) : Nat := leNat ((bs.drop (8 * i)).take 8)

/-- NTT and INTT (spec 11 R270): word j of D is the sum over i of A[i] w^(ij), modulo q; for INTT times the inverse v of the number of
words. D is A, or has no byte in common with it. -/
def TransformWrites : Prop :=
  ∀ (inv : Bool) (dsp asp : Space) (d a : W64) (logn : Nat) (w : W64) (pf : W32) (v : Int) (s1 u : Paid) (bs : List Byte)
    (qs : List (Place × Nat)),
    let q := modulusOf pf
    let sum (j : Nat) : Int := ((List.range (2 ^ logn)).map fun i => (coefficient bs i : Int) * (w.toNat : Int) ^ (i * j)).sum
    let out : List Byte := (List.range (2 ^ logn)).flatMap fun j => leBytes 8 ((if inv then v * sum j else sum j) % q).toNat
    0 < q → q ≤ 2 ^ 64 → (inv = true → v * 2 ^ logn % q = 1 % q) →
    OnOp .nttUnitOperationCompletion
      (fun s gi g o => o.phase = .queued ∧ o.body = .ntt inv d a dsp asp logn w pf ∧ atHead s gi g o
        ∧ engineReads (s, o.paid) gi g 1 asp a (8 * 2 ^ logn) s1 bs ∧ engineWrites s1 gi g 1 dsp d out [] u qs
        ∧ (let src := u.1.rangeIds gi g .engRead asp a (8 * 2 ^ logn)
           let dst := u.1.rangeIds gi g .engWrite dsp d (8 * 2 ^ logn)
           src = dst ∨ ∀ b ∈ dst, b ∉ src) ∧ s.heldBack u.1 = false)
      fun _ gi g o => leavesUnit g gi o.id (u.1.finishOp gi o.id [] none)

/-- BMUL (spec 11 R269), its product x of la and lb limbs, of least length l. Where D is apart from both factors it takes the limbs of
x, and the header with LEN l and NORM 1; where it is too small its status is OVERCAP, a header that is rejected gives BADHDR, a factor of
more than 65,536 limbs and a Boom window outside the allocation BADRANGE, and nothing is written; the scratch tile and Boom window are
unspecified. p, r: what the event asks of the operation, and what becomes of its place in the unit's queue. -/
def BmulWrites (ev : Instr) (p : State → Nat → Group → Op → Prop) (r : Group → Nat → Nat → State → State) : Prop :=
  ∀ (da aa ba : W64) (dsp asp bsp : Space) (dh ah bh : LimbHdr) (tile boff : Nat) (school : Bool),
    let asked (s : State) (gi : Nat) (g : Group) (o : Op) : Prop :=
      p s gi g o ∧ o.body = .bmul da aa ba dsp asp bsp dh ah bh tile boff school
    let inside (s : State) (g : Group) : Prop := 65536 * boff + 65536 ≤ s.boomSize g
    (dh.bad = true ∨ ah.bad = true ∨ bh.bad = true →
      OnOp ev asked fun s gi g o => r g gi o.id (s.finishOp gi o.id (o.status 0x01) none))
    ∧ (dh.bad = false → ah.bad = false → bh.bad = false → ∀ b : Bool,
      OnOp ev (fun s gi g o => asked s gi g o ∧ (65536 < ah.len.toNat ∨ 65536 < bh.len.toNat ∨ ¬ inside s g) ∧ (b = true ↔ inside s g))
        fun s gi g o => r g gi o.id ((s.freeScratch gi g tile boff b).finishOp gi o.id (o.status 0x03) none))
    ∧ ∀ (s0 : State) (s1 s2 s3 s4 : Paid) (as bs : List Byte) (qs hs : List (Place × Nat)),
      dh.bad = false → ah.bad = false → bh.bad = false → ah.len.toNat ≤ 65536 → bh.len.toNat ≤ 65536 →
      let x := bignum (wordsOf as) * bignum (wordsOf bs)
      let l := leastLen x
      let scratched (s : State) (gi : Nat) (g : Group) (o : Op) : Prop := asked s gi g o ∧ inside s g
        ∧ s0 = s.freeScratch gi g tile boff true
        ∧ engineReads (s0, o.paid) gi g 1 asp (aa + 16) (4 * ah.len.toNat) s1 as
        ∧ engineReads s1 gi g 1 bsp (ba + 16) (4 * bh.len.toNat) s2 bs
      OnOp ev (fun s gi g o => scratched s gi g o ∧ dh.cap.toNat < l ∧ s.heldBack s2.1 = false)
        (fun _ gi g o => r g gi o.id (s2.1.finishOp gi o.id (o.status 0x02) none))
      ∧ OnOp ev (fun s gi g o => scratched s gi g o ∧ l ≤ dh.cap.toNat
          ∧ engineWrites s2 gi g 1 dsp (da + 16) (bytesOf ((List.range l).map fun i => BitVec.ofInt 32 (x / (2 : Int) ^ (32 * i)))) [] s3 qs
          ∧ engineWrites s3 gi g 1 dsp da (bytesOf [BitVec.ofNat 32 l, dh.cap, 1 ||| (dh.flags &&& 2), 0]) (devRanges qs) s4 hs
          ∧ (∀ b ∈ s4.1.rangeIds gi g .engWrite dsp da (16 + 4 * dh.cap.toNat),
              b ∉ s4.1.rangeIds gi g .engRead asp aa (16 + 4 * ah.len.toNat) ∧ b ∉ s4.1.rangeIds gi g .engRead bsp ba (16 + 4 * bh.len.toNat))
          ∧ s.heldBack s4.1 = false)
        fun _ gi g o => r g gi o.id (s4.1.finishOp gi o.id (o.status 0) none)

/-- A free block of the buddy system of an arena, by class and offset: it lies in the arena at a multiple of its size, meets no
allocated block, and is no half of a larger free one (spec 10 R255). -/
def freeBlock (c : Ctx) (k o : Nat) : Prop :=
  let empty (k o : Nat) : Prop := o + 2 ^ (k + 6) ≤ c.arenaLen.toNat ∧ ∀ b ∈ c.blocks,
    b.1 + 2 ^ (b.2 + 6) ≤ c.arena.toNat + o ∨ c.arena.toNat + o + 2 ^ (k + 6) ≤ b.1
  k ≤ 20 ∧ o % 2 ^ (k + 6) = 0 ∧ empty k o ∧ (k < 20 → ¬ empty (k + 1) (o / 2 ^ (k + 7) * 2 ^ (k + 7)))

/-- HALLOC (spec 10 R255): a size of 0 or beyond 2^26 bytes is BADSIZE; else the block is the lowest free one of the least class that
holds the size and has one, cut down to the class of the size; where none has, HP_EMPTY. Its header is written, and its address and
status land. -/
def HallocTakes : Prop :=
  (∀ (c : Ctx) (cls : Nat), cls ≤ 20 →
    (∀ b ∈ c.blocks, b.2 ≤ 20 ∧ c.arena.toNat ≤ b.1 ∧ (b.1 - c.arena.toNat) % 2 ^ (b.2 + 6) = 0) →
    (c.take cls = none ↔ ∀ k o, cls ≤ k → ¬ freeBlock c k o)
    ∧ ∀ a c', c.take cls = some (a, c') → c' = { c with blocks := c.blocks ++ [(a, cls)] }
      ∧ ∃ k o, cls ≤ k ∧ freeBlock c k o ∧ a = c.arena.toNat + o ∧ (∀ o', freeBlock c k o' → o ≤ o')
        ∧ ∀ j, cls ≤ j → j < k → ∀ o', ¬ freeBlock c j o')
  ∧ ∀ (size : W32) (dst : Option Nat) (st : Nat),
    let res (a : Nat) (w : W32) : List Land :=
      (match dst with
        | some k => [.s k (BitVec.ofNat 32 a), .s (k + 1) (BitVec.ofNat 32 (a / 2 ^ 32))]
        | none => []) ++ [.s st w]
    let asked (o : Op) : Prop := o.phase = .queued ∧ o.body = .halloc size dst st
    OnOp .heapOperationCompletion (fun _ _ _ o => asked o ∧ (size = 0 ∨ 2 ^ 26 < size.toNat))
      (fun s gi g o => (s.setCtx (s.arena g.ctx)).finishOp gi o.id (res 0 0x11) none)
    ∧ ∀ cls : Nat, size ≠ 0 → size.toNat ≤ 2 ^ (cls + 6) → (∀ k < cls, 2 ^ (k + 6) < size.toNat) → cls ≤ 20 →
      OnOp .heapOperationCompletion (fun s _ g o => asked o ∧ (s.arena g.ctx).take cls = none)
        (fun s gi g o => (s.setCtx (s.arena g.ctx)).finishOp gi o.id (res 0 0x10) none)
      ∧ ∀ (a : Nat) (c : Ctx) (s1 : Paid) (qs : List (Place × Nat)), a < 2 ^ 64 →
          OnOp .heapOperationCompletion (fun s gi g o => asked o ∧ (s.arena g.ctx).take cls = some (a, c)
            ∧ engineWrites (s, o.paid) gi g 1 .g (BitVec.ofNat 64 a) (bytesOf [0, BitVec.ofNat 32 ((2 ^ (cls + 6) - 16) / 4), 3, 0]) [] s1 qs
            ∧ s.heldBack s1.1 = false)
            fun _ gi _ o => (s1.1.setCtx { c with halloced := c.halloced ++ [a] }).finishOp gi o.id (res a 0) none

/-- The number in n bytes from byte lo on. -/
def field (bs : List Byte) (lo n : Nat) : Nat := leNat ((bs.drop lo).take n)

/-- An address in a field of 8 bytes. -/
def fieldAddr (bs : List Byte) (lo : Nat) : W64 := BitVec.ofNat 64 (field bs lo 8)

/-- What an engine does in one request, or asks of the state: the device bytes that it has written so far and the state with what is
charged in advance, before and after. -/
abbrev Doing := List (Nat × Nat) × Paid → List (Nat × Nat) × Paid → Prop

/-- An engine of an operation reads n bytes of its group's address space. -/
def reads (gi : Nat) (g : Group) (sp : Space) (a : W64) (n : Nat) (bs : List Byte) : Doing := fun x y =>
  ∃ t, engineReads x.2 gi g 1 sp a n t bs ∧ y = (x.1, t)

/-- It writes bytes. -/
def puts (gi : Nat) (g : Group) (sp : Space) (a : W64) (bs : List Byte) : Doing := fun x y =>
  ∃ t qs, engineWrites x.2 gi g 1 sp a bs x.1 t qs ∧ y = (x.1 ++ devRanges qs, t)

/-- No byte of some destinations is a byte of some sources (spec 10 R249 item 8). -/
def apart (gi : Nat) (g : Group) (srcs dsts : List Rng) : Doing := fun x y =>
  y = x ∧ ∀ d ∈ dsts, ∀ b ∈ x.2.1.rangeIds gi g .engWrite d.1 d.2.1 d.2.2, ∀ r ∈ srcs, b ∉ x.2.1.rangeIds gi g .engRead r.1 r.2.1 r.2.2

/-- One after the other. -/
def inTurn : List Doing → Doing
  | [] => fun x y => y = x
  | d :: ds => fun x y => ∃ z, d x z ∧ inTurn ds z y

/-- An operation in a state that p describes makes requests in turn, none of them held by a budget, and ends with what lands. first: what
it has written before; leave: what becomes of its place in a queue. -/
def Carries (ev : Instr) (p : State → Nat → Group → Op → Prop) (first : State → Nat → Group → Op → List (Nat × Nat))
    (requests : Nat → Group → Op → List Doing) (leave : Group → Nat → Nat → State → State) (lands : Op → List Land) : Prop :=
  ∀ (w : List (Nat × Nat)) (u : Paid),
    OnOp ev (fun s gi g o => p s gi g o ∧ inTurn (requests gi g o) (first s gi g o, s, o.paid) (w, u) ∧ s.heldBack u.1 = false)
      fun _ gi g o => leave g gi o.id (u.1.finishOp gi o.id (lands o) none)

/-- An operation of the NTT unit carried out, its status w. -/
def UnitEnds (body : OpBody) (requests : Nat → Group → Op → List Doing) (w : W32) : Prop :=
  Carries .nttUnitOperationCompletion (fun s gi g o => o.phase = .queued ∧ o.body = body ∧ atHead s gi g o) (fun _ _ _ _ => [])
    requests leavesUnit fun o => o.status w

/-- XCRT (spec 11 R273): element j of the output is the sum of ((RES_i[j] y_i) mod q_i) M_i modulo Q; a descriptor out of range, a q_i or
Q of 0 is BADRANGE. v: the bytes of RES_i[j]. The output has no byte in common with what is read. -/
def CrtWrites : Prop :=
  ∀ (d : W64) (ds tb qb : List Byte) (v : Nat → Nat → List Byte),
    let m := field ds 52 1
    let n := field ds 48 4
    let table := fieldAddr ds 8
    let res (i : Nat) : W64 := fieldAddr ds (16 + 8 * i)
    let q (i : Nat) : Nat := field tb (48 * i) 8
    let bad : Prop := m = 0 ∨ 4 < m ∨ n = 0 ∨ 65536 < n ∨ field ds 53 11 ≠ 0 ∨ ∃ i, m ≤ i ∧ i < 4 ∧ field ds (16 + 8 * i) 8 ≠ 0
    let zero : Prop := (∃ i < m, q i = 0) ∨ leNat qb = 0
    let x (j : Nat) : Nat := ((List.range m).map fun i =>
      leNat (v j i) * field tb (48 * i + 8) 8 % q i * field tb (48 * i + 16) 32).sum % leNat qb
    let desc (gi : Nat) (g : Group) : List Doing := [reads gi g .g d 64 ds]
    let tables (gi : Nat) (g : Group) : List Doing := desc gi g ++ [reads gi g .g table (48 * m) tb, reads gi g .g (table + 192) 32 qb]
    (bad → UnitEnds (.xcrt d) (fun gi g _ => desc gi g) 0x03)
    ∧ (¬ bad → zero → UnitEnds (.xcrt d) (fun gi g _ => tables gi g) 0x03)
    ∧ (¬ bad → ¬ zero → UnitEnds (.xcrt d) (fun gi g _ => tables gi g
        ++ (List.range n).flatMap (fun j =>
          (List.range m).map (fun i => reads gi g .g (res i + BitVec.ofNat 64 (8 * j)) 8 (v j i))
            ++ [puts gi g .g (fieldAddr ds 0 + BitVec.ofNat 64 (32 * j)) (leBytes 32 (x j))])
        ++ [apart gi g ([(.g, d, 64), (.g, table, 48 * m), (.g, table + 192, 32)] ++ (List.range m).map fun i => (.g, res i, 8 * n))
              [(.g, fieldAddr ds 0, 32 * n)]]) 0)

/-- Coefficient j of a product modulo X^n + 1. -/
def wound (n : Nat) (a b : Nat → Int) (j : Nat) : Int :=
  ((List.range n).map fun p => if p ≤ j then a p * b (j - p) else -(a p * b (n + j - p))).sum

/-- KSWITCH (spec 11 R272). Headers that do not fit, and a modulus of FORM 0, are BADRANGE; a budget below the cost sets EXHAUSTED and
changes no row; else the budget falls by the cost, and each row of c0 and c1 takes the sum of the products with the key data, modulo its
q. c0, c1, k: the bytes read of row i of c0, of row d of c1 for row i, and of k(d, t, i); a row is read as the rows before it have left
it (log 29). The ciphertext has no byte in common with key and moduli, nor c0 with c1. -/
def KeySwitches : Prop :=
  ∀ (c k0 : W64) (ch kh tb hb : List Byte) (c0 : Nat → List Byte) (c1 : Nat → Nat → List Byte) (k : Nat → Nat → Nat → List Byte),
    let body : OpBody := .kswitch c k0 ch kh
    let rows := field ch 0 2 + 1
    let klev := field kh 10 2
    let n := 2 ^ field ch 16 1
    let pf (i : Nat) : W32 := BitVec.ofNat 32 (field tb (4 * i) 4)
    let bad : Prop := field ch 48 16 ≠ 0 ∨ field ch 17 7 ≠ 0 ∨ field kh 32 32 ≠ 0 ∨ field kh 17 7 ≠ 0 ∨ field kh 12 4 ≠ 0
      ∨ field ch 2 2 ≠ field kh 8 2 ∨ field ch 16 1 ≠ field kh 16 1 ∨ klev < rows
    let unfit : Prop := ∃ i < rows, pformOf (pf i) = 0
    let left : Int := (BitVec.ofNat 32 (field hb 8 4)).toInt - field kh 4 4
    let kAt (d t i : Nat) : W64 := fieldAddr kh 24 + BitVec.ofNat 64 (8 * n * ((2 * d + t) * klev + i))
    let row (b : W64) (i : Nat) : W64 := b + BitVec.ofNat 64 (8 * n * i)
    let at0 := fieldAddr ch 24
    let at1 := fieldAddr ch 32
    let e (i d p : Nat) : Int := (coefficient (c1 i d) p : Int) % modulusOf (pf d)
    let u (i t j : Nat) : Int := (if t = 0 then (coefficient (c0 i) j : Int) else 0)
      + ((List.range rows).map fun d => wound n (e i d) (fun p => (coefficient (k d t i) p : Int)) j).sum
    let out (i t : Nat) : List Byte := (List.range n).flatMap fun j => leBytes 8 (u i t j % modulusOf (pf i)).toNat
    let moduli (gi : Nat) (g : Group) : List Doing := [reads gi g .g (fieldAddr ch 40) (4 * rows) tb]
    let header (gi : Nat) (g : Group) : List Doing := moduli gi g ++ [reads gi g .s c 16 hb]
    let key : List Rng := (.g, fieldAddr ch 40, 4 * rows) :: (List.range (2 * rows)).map fun m => (.g, row (fieldAddr kh 24) (m * klev), 8 * n * rows)
    let r0 : Rng := (.g, at0, 8 * n * rows)
    let r1 : Rng := (.g, at1, 8 * n * rows)
    (bad → UnitEnds body (fun _ _ _ => []) 0x03)
    ∧ (¬ bad → unfit → UnitEnds body (fun gi g _ => moduli gi g) 0x03)
    ∧ (¬ bad → ¬ unfit → left < 0 → UnitEnds body (fun gi g _ => header gi g
        ++ [puts gi g .s c (hb.take 12 ++ leBytes 4 (BitVec.ofNat 32 (field hb 12 4) ||| 1).toNat)]) 0x22)
    ∧ (¬ bad → ¬ unfit → 0 ≤ left → (∀ i < rows, 0 < modulusOf (pf i) ∧ modulusOf (pf i) ≤ 2 ^ 64) →
        UnitEnds body (fun gi g _ => header gi g
          ++ [puts gi g .s c (hb.take 8 ++ leBytes 4 (BitVec.ofInt 32 left).toNat ++ hb.drop 12)]
          ++ (List.range rows).flatMap (fun i =>
            [reads gi g .g (row at0 i) (8 * n) (c0 i)]
            ++ (List.range rows).flatMap (fun d => [reads gi g .g (row at1 d) (8 * n) (c1 i d),
                reads gi g .g (kAt d 0 i) (8 * n) (k d 0 i), reads gi g .g (kAt d 1 i) (8 * n) (k d 1 i)])
            ++ [puts gi g .g (row at0 i) (out i 0), puts gi g .g (row at1 i) (out i 1)])
          ++ [apart gi g key [(.s, c, 16), r0, r1], apart gi g [r1] [r0], apart gi g [r0] [r1]]) 0)

/-- CRES (spec 09 R235): n elements of the tile from start on, at weights of 2^16 or 2^32 per step; with ACC 1 their sum times 2^(32 OFF)
is added to the number in the array. The limbs of the result are written, then the header, with its least length. hb, lb: the bytes read
of the header and of the limbs. -/
def CarriesResolve : Prop :=
  ∀ (a : W64) (sp : Space) (ctl : BitVec 54) (start n : Nat) (hb lb : List Byte),
    let f (hi lo : Nat) : Nat := (ctl.extractLsb' (lo - 74) (hi - lo + 1)).toNat
    let w := if f 123 123 = 0 then 16 else 32
    let acc : Prop := f 122 122 = 1
    let part (g : Group) (k j : Nat) : Nat := leNat (Memory.read g.acc (65536 * (f 127 125 + j) + 4 * k) 4)
    let elem (g : Group) (k : Nat) : Int := sextN (part g k 0 + 2 ^ 32 * part g k 1 + 2 ^ 64 * part g k 2) 96
    let v (g : Group) : Int := ((List.range n).map fun k => elem g (start + k) * 2 ^ (w * k)).sum
    let x (g : Group) : Int := if acc then bignum (wordsOf lb) + v g * 2 ^ (32 * f 121 106) else v g
    let cap := field hb 4 4
    let ends (p : Group → Prop) (requests : Nat → Group → List Doing) (st : W32) : Prop :=
      Carries .matrixOperationCompletion (fun _ _ g o => o.phase = .queued ∧ g.mxIdle o.id = true ∧ o.body = .cres a sp ctl start n ∧ p g)
        (fun _ _ _ _ => []) (fun gi g _ => requests gi g) (fun _ _ _ t => t) fun o => o.status st
    let header (gi : Nat) (g : Group) : List Doing := [reads gi g sp a 16 hb]
    let array (gi : Nat) (g : Group) : List Doing := header gi g ++ if acc then [reads gi g sp (a + 16) (4 * field hb 0 4) lb] else []
    let outside : Prop := n = 0 ∨ 16384 < start + n
    (outside → ends (fun _ => True) (fun _ _ => []) 0x03)
    ∧ (¬ outside → (hdrOf hb).bad = true → ends (fun _ => True) header 0x01)
    ∧ (¬ outside → (hdrOf hb).bad = false →
        ends (fun g => Memory.wf g.acc = true ∧ cap < leastLen (x g)) array 0x02
        ∧ ends (fun g => Memory.wf g.acc = true ∧ leastLen (x g) ≤ cap) (fun gi g => array gi g
            ++ [puts gi g sp (a + 16) (bytesOf ((List.range (leastLen (x g))).map fun i => BitVec.ofInt 32 (x g / (2 : Int) ^ (32 * i)))),
                puts gi g sp a (bytesOf [BitVec.ofNat 32 (leastLen (x g)), BitVec.ofNat 32 cap, 1 ||| (BitVec.ofNat 32 (field hb 8 4) &&& 2), 0])]) 0)

/-- The rational number that a finite value is. -/
def rational : Val → Option ℚ
  | .fin n m x => some ((if n then -1 else 1) * m * (2 : ℚ) ^ x)
  | _ => none

/-- Sums and products of values are exact, and the encoding of one that lies within the finite range of a format is rounded once
(spec 03 R75, R82, R83, R89). -/
def ExactValues : Prop :=
  (∀ (a b : Val) (rm : Nat) (p q : ℚ), rational a = some p → rational b = some q →
    rational (addV a b rm) = some (p + q) ∧ rational (mulV a b) = some (p * q)
    ∧ ∀ k : Int, -5000 ≤ k → k ≤ 5000 → rational (scaleV a k) = some (p * (2 : ℚ) ^ k))
  ∧ ∀ (ty rm : Nat) (sat : Bool) (v : Val) (q : ℚ), 8 ≤ ty → ty ≤ 0x0B → rm < 4 → rational v = some q → q ≠ 0 →
      |q| ≤ codeVal (fmtOf ty 0) (fmtOf ty 0).maxCode → RoundedTo (fmtOf ty 0) rm (q < 0) (|q| : ℚ) (encodeV (fmtOf ty 0) sat rm v)

/-- A chunk of products added exactly (spec 03 R89): the default NaN where it holds a NaN or infinities of both signs. -/
def chunkTotal (ps : List Val) : Val :=
  if (∃ p ∈ ps, p.isNan = true) ∨ (Val.inf true ∈ ps ∧ Val.inf false ∈ ps) then defaultNan
  else ps.tail.foldl (fun a b => addV a b 0) (ps.headD (.fin false 0 0))

/-- A tile updated by a matrix product (spec 03 R89 to R91, 11 R262): from a group g to a group h, by operands in the bytes A and B and
row and column exponents, in the rows of the operation, in its mode; every other byte of the accumulator stands, and the window flag
falls in only where mode 4 loses something. -/
def Updated (g h : Group) (a : MxArgs) (abs bbs : List Byte) (rs cs : Nat → Int) : Prop :=
  let wide : Prop := 2 ≤ a.mode
  let n := if a.mode = 3 ∨ (a.mode = 0 ∧ a.f 127 123 < 0x10) then 2 else 1
  let rb := if a.mode = 3 then 16 else 32
  let codeA (r k : Nat) : Nat := field abs (rb * r + n * k) n
  let codeB (j k : Nat) : Nat := field bbs (rb * j + n * k) n
  let int (s c : Nat) : Int := if s = 1 then sextN c (8 * n) else c
  let intSum (r j : Nat) : Int :=
    ((List.range (rb / n)).map fun k => int (a.f 108 108) (codeA r k) * int (a.f 107 107) (codeB j k)).sum
  let valA (r k : Nat) : Val := decodeF (fmtOf (a.f 127 123) (a.f 117 115)) (codeA r k)
  let valB (j k : Nat) : Val := decodeF (fmtOf (a.f 122 118) (a.f 114 112)) (codeB j k)
  let product (r j k : Nat) : Val := scaleV (mulV (valA r k) (valB j k)) (rs r + cs j)
  let part (m : Memory) (r j t : Nat) : Nat := leNat (Memory.read m (65536 * (a.tile + t) + 4 * (128 * r + j)) 4)
  let cell (m : Memory) (r j : Nat) : Nat :=
    if wide then part m r j 0 + 2 ^ 32 * part m r j 1 + 2 ^ 64 * part m r j 2 else part m r j 0
  let f32 := fmtOf 10 0
  let floatSum (r j : Nat) : Nat := (List.range (rb / n / 16)).foldl (fun acc c =>
    let t := decodeF f32 (encodeV f32 false 0 (chunkTotal ((List.range 16).map fun k => product r j (16 * c + k))))
    encodeV f32 false 0 (addV (decodeF f32 acc) t 0)) (cell g.acc r j)
  let shifted (r j k : Nat) : Option ℚ := (rational (product r j k)).map fun p => p * (2 : ℚ) ^ sextN (a.f 106 99) 8
  let cut (q : ℚ) : Int := if 0 ≤ q then ⌊q⌋ else ⌈q⌉
  let fixSum (r j : Nat) : Int := sextN (cell g.acc r j) 96 + ((List.range 32).map fun k => ((shifted r j k).map cut).getD 0).sum
  let lost (r j : Nat) : Prop := (∃ k < 32, ∀ q, shifted r j k = some q → (cut q : ℚ) ≠ q ∨ 2 ^ 95 ≤ |cut q|)
    ∨ fixSum r j < -2 ^ 95 ∨ 2 ^ 95 ≤ fixSum r j
  let rowIn (r : Nat) : Prop := r < 128 ∧ a.rows.getLsbD r = true
  ({ h with acc := g.acc, window := g.window } : Group) = g
  ∧ (∀ x, (∀ r j t b, rowIn r → j < 128 → (t = 0 ∨ (wide ∧ t < 3)) → b < 4 → x ≠ 65536 * (a.tile + t) + 4 * (128 * r + j) + b) →
      Memory.get h.acc x = Memory.get g.acc x)
  ∧ (∀ r j, rowIn r → j < 128 →
      (a.mode = 0 → cell h.acc r j = floatSum r j)
      ∧ (a.mode = 1 → (cell h.acc r j : Int) = (cell g.acc r j + intSum r j) % 2 ^ 32)
      ∧ (a.mode = 2 ∨ a.mode = 3 → (cell h.acc r j : Int) = (cell g.acc r j + intSum r j) % 2 ^ 96)
      ∧ (a.mode = 4 → (cell h.acc r j : Int) = fixSum r j % 2 ^ 96))
  ∧ (a.mode = 4 → (∃ r j, rowIn r ∧ j < 128 ∧ lost r j) → h.window = g.window ||| if a.tile = 0 then 1 else 2)
  ∧ (¬ (a.mode = 4 ∧ ∃ r j, rowIn r ∧ j < 128 ∧ lost r j) → h.window = g.window)

/-- The bytes of an operation's A, of its B and of its scale block (zeros without one), as they are when it starts (spec 11 R260). -/
def operandA (s : State) (gi : Nat) (g : Group) (a : MxArgs) (bs : List Byte) : Prop :=
  let n := 128 * if a.mode = 3 then 16 else 32
  (a.f 94 94 = 0 ∧ bs = a.aRegs.flatMap bytesOf)
  ∨ (a.f 94 94 = 1 ∧ a.aAddr.getLsbD 19 = true ∧ a.aAddr.toNat % 2 ^ 15 + n ≤ 2 ^ 15
      ∧ (s.readRange gi g true .engRead .s (a.aAddr.setWidth 64) n).2 = .ok bs)
@[inherit_doc operandA]
def operandB (s : State) (gi : Nat) (g : Group) (a : MxArgs) (bs : List Byte) : Prop :=
  (s.readRange gi g true .engRead .b (a.bAddr.setWidth 64) (128 * if a.mode = 3 then 16 else 32)).2 = .ok bs
@[inherit_doc operandA]
def scaleBlock (s : State) (gi : Nat) (g : Group) (a : MxArgs) (bs : List Byte) : Prop :=
  (a.f 95 95 = 0 ∧ bs = List.replicate 256 0)
  ∨ (a.f 95 95 = 1 ∧ (s.readRange gi g true .engRead .s (a.scAddr.setWidth 64) 256).2 = .ok bs)

/-- The exponent in byte i of a scale block. -/
def exponent (bs : List Byte) (i : Nat) : Int := ((bs[i]?).getD 0).toInt

/-- Products of matrices: an MXMAC at the head of its engine's queue updates its tile; both halves of an MXPAIR theirs, with the A and
the row exponents of the even one (spec 11 R262, R265). The modes and tiles are those that the forms admit. -/
def MatrixProducts : Prop :=
  let fits (g : Group) (a : MxArgs) : Prop := Memory.wf g.acc = true ∧ a.mode ≤ 4 ∧ (2 ≤ a.mode → a.tile = 0 ∨ a.tile = 3)
  (∀ (s : State) (core gi id : Nat) (g : Group) (o : Op) (a : MxArgs) (abs bbs sc : List Byte), s.input = .index core →
    s.mxHead core = some (gi, id, g, o) → o.phase = .queued → o.body = .mxmac a → s.mxServes core = true → g.mxTurn id = true → fits g a →
    operandA s gi g a abs → operandB s gi g a bbs → scaleBlock s gi g a sc →
    ∃ h, exec .matrixOperationStart s = .next ((s.mxPop core).setGroup gi (h.started id []))
      ∧ Updated g h a abs bbs (exponent sc) fun j => exponent sc (128 + j))
  ∧ ∀ (s : State) (core ei oi eid oid : Nat) (eg og : Group) (eo oo : Op) (ea oa : MxArgs) (x y : Bool) (abs ebs obs esc osc : List Byte),
    let even := core / 2 * 2
    s.input = .index core → s.mxHead even = some (ei, eid, eg, eo) → s.mxHead (even + 1) = some (oi, oid, og, oo) →
    eo.phase = .queued → oo.phase = .queued → eo.body = .mxpair ea x → oo.body = .mxpair oa y →
    s.mxServes even = true → s.mxServes (even + 1) = true → s.hasToken even = true → eg.mxTurn eid = true → og.mxTurn oid = true →
    eg.grid = og.grid → eg.team = og.team → fits eg ea → fits og oa →
    operandA s ei eg ea abs → operandB s ei eg ea ebs → operandB s oi og oa obs → scaleBlock s ei eg ea esc → scaleBlock s oi og oa osc →
    ∃ eh oh, exec .matrixOperationStart s = .next ((((s.mxPop even).mxPop (even + 1)).setGroup ei (eh.started eid (eo.status 0))).setGroup oi
        (oh.started oid (oo.status 0)))
      ∧ (Updated eg eh ea abs ebs (exponent esc) fun j => exponent esc (128 + j))
      ∧ Updated og oh oa abs obs (exponent esc) fun j => exponent osc (128 + j)

/-- What an element step of a loop nest puts in D, by its code, from the patterns of A, B and D and the carry: the pattern, and the
carry after it (spec 11 R275, R276). -/
def nestStep (eop ty : Nat) (pf : W32) (a b d c : Nat) : Nat × Nat :=
  let f := fmtOf ty 0
  let int (x : Int) : Nat := intResult ty false x
  let v := intVal ty
  let flt := tyInt ty = false
  let float (x : Val) : Nat := encodeV f false 0 x
  match eop with
  | 0x00 => (a, 0)
  | 0x01 => (sum ty a b, 0)
  | 0x02 => (if flt then float (subV (decodeF f a) (decodeF f b) 0) else int (v a - v b), 0)
  | 0x03 => (if flt then float (mulV (decodeF f a) (decodeF f b)) else int (v a * v b), 0)
  | 0x04 => (if flt then float (fmaV (decodeF f a) (decodeF f b) (decodeF f d) 0) else int (v a * v b + v d), 0)
  | 0x05 => (sum ty d a, 0)
  | 0x06 => (least ty a b, 0)
  | 0x07 => (most ty a b, 0)
  | 0x08 => (a &&& b, 0)
  | 0x09 => (a ||| b, 0)
  | 0x0A => (a ^^^ b, 0)
  | 0x0B => ((a + b + c) % 2 ^ 32, (a + b + c) / 2 ^ 32)
  | 0x0C => ((((a : Int) - b - c) % 2 ^ 32).toNat, if (a : Int) - b - c < 0 then 1 else 0)
  | 0x0D => ((a * b + d + c) % 2 ^ 32, (a * b + d + c) / 2 ^ 32)
  | _ => (int (v a * v b % modulusOf pf), 0)

/-- The carry before step i of a run. -/
def nestCarryAt (step : Nat → Nat → Nat × Nat) : Nat → Nat
  | 0 => 0
  | i + 1 => (step i (nestCarryAt step i)).2

/-- LNEST (spec 11 R274 to R276): run p of level 0 is the one at indices i_1 = p mod e_1, i_2 = (p / e_1) mod e_2 and so on; its step i
reads A, B (once before all under BSC) and under DRD D, and writes D; a run of a code that carries writes the last carry, or the borrow in
every bit, at i_0 = extent_0. av, bv, dv: the bytes read at run p and step i; b0: those of B under BSC. No byte of D is one that A or B is
read from. -/
def NestRuns : Prop :=
  ∀ (e : NestEnc) (base : Nat → W64) (steps : List Int) (pf : W32) (av bv dv : Nat → Nat → List Byte) (b0 : List Byte),
    let eop := e.eop.toNat
    let ty := e.etype.toNat
    let es := tyBits ty / 8
    let ext := nestExtent e
    let up := nestLevels e - 1
    let sp (o : Nat) : Space := if (if o = 0 then e.ds else e.abs) then .s else .g
    let stride (o k : Nat) : Int := steps.getD (5 * o + k) 0
    let index (p k : Nat) : Nat := p / ((List.range (k - 1)).map fun m => ext (m + 1)).prod % ext k
    let off (o p i : Nat) : Int := stride o 0 * i + ((List.range up).map fun k => stride o (k + 1) * index p (k + 1)).sum
    let place (o p i : Nat) : W64 :=
      let a := base o + BitVec.ofInt 64 (es * off o p i)
      if sp o = .s then (a.setWidth 32).setWidth 64 else a
    let runs := ((List.range up).map fun m => ext (m + 1)).prod
    let step (p i c : Nat) : Nat × Nat :=
      nestStep eop ty pf (leNat (av p i)) (leNat (if e.bsc then b0 else bv p i)) (if e.drd then leNat (dv p i) else 0) c
    let carry (p : Nat) : Nat → Nat := nestCarryAt (step p)
    let carries : Prop := eop = 0x0B ∨ eop = 0x0C ∨ eop = 0x0D
    let last (c : Nat) : Nat := if eop = 0x0C ∧ c ≠ 0 then 2 ^ 32 - 1 else c
    let rng (o p i : Nat) : Rng := (sp o, place o p i, es)
    let all (n : Nat) (o : Nat) : List Rng := (List.range runs).flatMap fun p => (List.range n).map fun i => rng o p i
    eop ≤ 0x0E →
    Carries .streamEngineCompletion (fun _ _ _ o => o.phase = .queued ∧ o.body = .nest e (base 0) (base 1) (base 2) steps pf)
      (fun _ _ _ _ => [])
      (fun gi g _ => (if e.bsc then [reads gi g (sp 2) (place 2 0 0) es b0] else [])
        ++ (List.range runs).flatMap (fun p =>
          (List.range (ext 0)).flatMap (fun i => [reads gi g (sp 1) (place 1 p i) es (av p i)]
            ++ (if e.bsc then [] else [reads gi g (sp 2) (place 2 p i) es (bv p i)])
            ++ (if e.drd then [reads gi g (sp 0) (place 0 p i) es (dv p i)] else [])
            ++ [puts gi g (sp 0) (place 0 p i) (leBytes es (step p i (carry p i)).1)])
          ++ if carries then [puts gi g (sp 0) (place 0 p (ext 0)) (leBytes es (last (carry p (ext 0))))] else [])
        ++ [apart gi g (all (ext 0) 1 ++ if e.bsc then [rng 2 0 0] else all (ext 0) 2) (all (if carries then ext 0 + 1 else ext 0) 0)])
      (fun _ _ _ t => t) fun _ => []

/-- A walk that reads and writes ranges, in which no byte written is one that has been read, nor one read one that has been written: read
or write, space, address, bytes asked for, the bytes. -/
def walked (gi : Nat) (g : Group) : List Rng → List Rng → List (Bool × Space × W64 × Nat × List Byte) → List Doing
  | _, _, [] => []
  | srcs, wrote, (false, sp, a, n, bs) :: l =>
    apart gi g [(sp, a, n)] wrote :: reads gi g sp a n bs :: walked gi g ((sp, a, n) :: srcs) wrote l
  | srcs, wrote, (true, sp, a, _, bs) :: l =>
    puts gi g sp a bs :: apart gi g srcs [(sp, a, bs.length)] :: walked gi g srcs (wrote ++ [(sp, a, bs.length)]) l

/-- XGATH (spec 10 R252): the rows from start on, m of them whole; then the walk is at its end, or a row's bounds are in the wrong order
(BADRANGE), or its elements pass the capacity (OVERCAP): those that still fit are copied. NOUT and STATUS are written last. ds, lo, hi: the
bytes of the descriptor and of the bounds of the row j after start; cb, vb: those of the k-th element copied. -/
def Gathers : Prop :=
  ∀ (desc : W64) (dsc isp osp : Bool) (start count m : Nat) (ds : List Byte) (lo hi cb vb : Nat → List Byte),
    let sp (b : Bool) : Space := if b then .s else .g
    let vs := field ds 44 4
    let cap := field ds 48 4
    let bad : Prop := (vs ≠ 4 ∧ vs ≠ 8) ∨ field ds 40 4 ≠ 0 ∨ field ds 60 4 ≠ 0
      ∨ (isp = true ∧ (field ds 4 4 ≠ 0 ∨ field ds 12 4 ≠ 0 ∨ field ds 20 4 ≠ 0))
      ∨ (osp = true ∧ (field ds 28 4 ≠ 0 ∨ field ds 36 4 ≠ 0))
    let len (j : Nat) : Nat := leNat (hi j) - leNat (lo j)
    let done (j : Nat) : Nat := ((List.range j).map len).sum
    let at_ (b : Nat) (n i : Nat) : W64 := fieldAddr ds b + BitVec.ofNat 64 (n * i)
    let bounds (j : Nat) : List (Bool × Space × W64 × Nat × List Byte) :=
      [(false, sp isp, at_ 0 4 (start + j), 4, lo j), (false, sp isp, at_ 0 4 (start + j + 1), 4, hi j)]
    let elements (j n : Nat) : List (Bool × Space × W64 × Nat × List Byte) := (List.range n).flatMap fun i =>
      let k := done j + i
      [(false, sp isp, at_ 8 4 (leNat (lo j) + i), 4, cb k), (false, sp isp, at_ 16 vs (leNat (lo j) + i), vs, vb k),
       (true, sp osp, at_ 24 4 k, 4, cb k), (true, sp osp, at_ 32 vs k, vs, vb k)]
    let rows : List (Bool × Space × W64 × Nat × List Byte) := (List.range m).flatMap fun j => bounds j ++ elements j (len j)
    let ends (walk : List (Bool × Space × W64 × Nat × List Byte)) (nout : Nat) (st : W32) : Prop :=
      Carries .copyOperationCompletion
        (fun s gi g o => o.phase = .queued ∧ o.body = .gather desc dsc isp osp start count ∧ s.copyWaits gi g o = false) wroteBefore
        (fun gi g o => [reads gi g (sp dsc) desc 64 ds] ++ walked gi g [(sp dsc, desc, 64)] o.wrote walk
          ++ [puts gi g (sp dsc) (desc + 52) (bytesOf [BitVec.ofNat 32 nout, st])])
        (fun _ _ _ t => t) fun _ => []
    (bad → ends [] 0 0x03)
    ∧ (¬ bad → m ≤ count → (∀ j < m, leNat (lo j) ≤ leNat (hi j)) → done m ≤ cap →
        (m = count → ends rows (done m) 0)
        ∧ (m < count → leNat (hi m) < leNat (lo m) → ends (rows ++ bounds m) (done m) 0x03)
        ∧ (m < count → leNat (lo m) ≤ leNat (hi m) → cap < done m + len m → ends (rows ++ bounds m ++ elements m (cap - done m)) cap 0x02))

/-- XCHAIN (spec 10 R253), where no budgets are set (with them see log 42): m records in turn that the engine owns and that are valid are
copied, each marked OK and given back; the walk then stands at the end of the list or at its greatest length, or at a record that is not
handed over, or at an invalid one, which is marked BADRANGE and given back. rb, sb: the bytes of record j and of its source; no byte of a
record's destination is one of its source. -/
def Chains : Prop :=
  ∀ (a0 : W64) (hops m : Nat) (rb sb : Nat → List Byte),
    let at_ (j : Nat) : W64 := if j = 0 then a0 else fieldAddr (rb (j - 1)) 48
    let ctrl (j : Nat) : Nat := field (rb j) 20 4
    let ssp (j : Nat) : Nat := ctrl j / 2 % 8
    let dsp (j : Nat) : Nat := ctrl j / 16 % 8
    let n (j : Nat) : Nat := field (rb j) 28 4
    let owned (j : Nat) : Prop := ctrl j % 2 = 1
    let lies (k : Nat) (a : W64) : Prop := a.toNat % 4 = 0 ∧ (k ≠ 0 → a.toNat < 2 ^ 32)
    let valid (j : Nat) : Prop := ctrl j < 2 ^ 7 ∧ ssp j ≤ 3 ∧ dsp j ≤ 3 ∧ dsp j ≠ 2 ∧ field (rb j) 56 8 = 0 ∧ n j % 4 = 0
      ∧ lies (ssp j) (fieldAddr (rb j) 32) ∧ lies (dsp j) (fieldAddr (rb j) 40)
    let mark (gi : Nat) (g : Group) (j : Nat) (st : W32) : Doing :=
      puts gi g .g (at_ j + 20) (bytesOf [BitVec.ofNat 32 (ctrl j - ctrl j % 2), st])
    let look (gi : Nat) (g : Group) (j : Nat) : Doing := reads gi g .g (at_ j) 64 (rb j)
    let record (gi : Nat) (g : Group) (j : Nat) : List Doing :=
      let src : Rng := (spaceOf (ssp j), fieldAddr (rb j) 32, n j)
      let dst : Rng := (spaceOf (dsp j), fieldAddr (rb j) 40, n j)
      [look gi g j, reads gi g src.1 src.2.1 src.2.2 (sb j), apart gi g [src] [dst], puts gi g dst.1 dst.2.1 (sb j), mark gi g j 0]
    let ends (stop : Nat → Group → List Doing) : Prop :=
      Carries .copyOperationCompletion
        (fun s gi g o => o.phase = .queued ∧ o.body = .walk a0 hops ∧ s.copyWaits gi g o = false ∧ s.capped = false) wroteBefore
        (fun gi g _ => (List.range m).flatMap (record gi g) ++ stop gi g) (fun _ _ _ t => t) fun _ => []
    hops + m ≤ 65536 → (∀ j < m, at_ j ≠ 0 ∧ owned j ∧ valid j) →
    (at_ m = 0 ∨ hops + m = 65536 → ends fun _ _ => [])
    ∧ (at_ m ≠ 0 → hops + m < 65536 →
        (¬ owned m → ends fun gi g => [look gi g m])
        ∧ (owned m → ¬ valid m → ends fun gi g => [look gi g m, mark gi g m 0x03]))

/-- Stock (spec 04 R111, R112, 11 R282). SKREF and SKUNREF step the count of a live line, which sticks at its greatest value and frees the
line at 0; of a name that is not live they change nothing, as SKLD, with STOCK_ABSENT. SKLD gives a line's bytes, whose requests are charged (18 R326; log 42). A lookup counts a live
line with the bytes, or gives a free line the bytes, the lowest ordinal not taken and a count of 1; it gives the null name where no line
is free, and nothing where all 255 ordinals are taken. Which free line is open (log 3). -/
def StockCounts : Prop :=
  let named (n : Name) (l : StockLine) : Bool := decide (nameOrd n ≠ 0 ∧ l.ord = nameOrd n ∧ l.digest = nameDigest n)
  let counted (s : State) (ctx : W32) (l : StockLine) (c : W32) : State :=
    s.setCtx { s.ctx ctx with stock := (s.ctx ctx).stock.filterMap fun m =>
      let k := if m = l then c else m.count
      if k = 0 then none else some { m with count := k } }
  let ends (body : OpBody) (p : State → Nat → Group → Op → Prop) (r : State → Nat → Group → Op → State) : Prop :=
    OnOp .stockOperationCompletion (fun s gi g o => o.phase = .queued ∧ o.body = body ∧ s.stockWaits gi g o = false
      ∧ s.unguarded gi o.hold = true ∧ p s gi g o) r
  (∀ (up : Bool) (n : Name),
    ends (.skref up n) (fun s _ g _ => (s.ctx g.ctx).stock.find? (named n) = none) (fun s gi _ o => s.finishOp gi o.id (o.status 0x41) none)
    ∧ ∀ l, ends (.skref up n) (fun s _ g _ => (s.ctx g.ctx).stock.find? (named n) = some l) fun s gi g o =>
        (counted s g.ctx l (if l.count = 0xFFFFFFFF then l.count else if up then l.count + 1 else l.count - 1)).finishOp gi o.id (o.status 0) none)
  ∧ (∀ (n : Name) (stage : Option W32) (k : Nat),
    ends (.skld n stage k) (fun s _ g _ => (s.ctx g.ctx).stock.find? (named n) = none)
      (fun s gi _ o => s.finishOp gi o.id (o.status 0x41) none)
    ∧ ∀ (l : StockLine) (bs : List Byte),
      (stage = none → ends (.skld n stage k)
        (fun s _ g o => (s.ctx g.ctx).stock.find? (named n) = some l ∧ s.lineBytes l = .ok bs
          ∧ s.heldBack (charged 1 (s, o.paid) [(l.pa, 256)]).1 = false)
        fun s gi g o => (charged 1 (s, o.paid) [(l.pa, 256)]).1.finishOp gi o.id (regLands k g.width (wordsOf bs) ++ o.status 0) none)
      ∧ ∀ (a : W32) (u : Paid) (qs : List (Place × Nat)), stage = some a → ends (.skld n stage k)
        (fun s gi g o => (s.ctx g.ctx).stock.find? (named n) = some l ∧ s.lineBytes l = .ok bs
          ∧ engineWrites (charged 1 (s, o.paid) [(l.pa, 256)]) gi g 1 .s (a.setWidth 64) bs [] u qs ∧ s.heldBack u.1 = false)
        fun _ gi _ o => u.1.finishOp gi o.id (o.status 0) none)
  ∧ ∀ (s : State) (ctx : W32) (line : List Byte) (bytes : StockLine → List Byte),
    let d := stockDigest ctx line
    let same (l : StockLine) : Bool := decide (l.digest = d)
    let stock := (s.ctx ctx).stock
    (∀ l ∈ stock, same l = true → s.lineBytes l = .ok (bytes l)) →
    (∀ l, stock.find? (fun l => same l && decide (bytes l = line)) = some l →
      s.lookup ctx line = .ok (counted s ctx l (if l.count = 0xFFFFFFFF then l.count else l.count + 1), some (l.ord ++ d)))
    ∧ ((∀ l ∈ stock, same l = true → bytes l ≠ line) →
      let taken (k : Nat) : Prop := ∃ l ∈ stock, same l = true ∧ l.ord.toNat = k
      ((∀ k, 1 ≤ k → k ≤ 255 → taken k) → s.lookup ctx line = .ok (s, none))
      ∧ ∀ k, 1 ≤ k → k ≤ 255 → ¬ taken k → (∀ j, 1 ≤ j → j < k → taken j) →
        ((∀ p ∈ s.stockLines ctx, ∃ l ∈ stock, l.pa = p.1) → s.lookup ctx line = .ok (s, some 0))
        ∧ ((∃ p ∈ s.stockLines ctx, ∀ l ∈ stock, l.pa ≠ p.1) → ∃ p ∈ s.stockLines ctx, (∀ l ∈ stock, l.pa ≠ p.1) ∧
            let t := ((s.draw.2.writeDev p.1 (line.take 128) p.2).writeDev (p.1 + 128) (line.drop 128) p.2).clearPoison [(p.1, 256)]
            let l : StockLine := { pa := p.1, key := p.2, ord := BitVec.ofNat 8 k, digest := d, count := 1 }
            s.lookup ctx line = .ok (t.setCtx { t.ctx ctx with stock := (t.ctx ctx).stock ++ [l] }, some (l.ord ++ d))))

end Sys2Proof.Claims

/-- The counters fall in issue order: of a group's operations those leave that are complete with all of their class before them, and
no other; and their faults become due in that order. A sleeping group wakes where one of those that leave had a class (spec 08 R198). -/
def Obligations.CountersFallInOrder : Prop :=
  ∀ (g : Group) (cycle : Nat),
    let leaves (n : Nat) : Bool := (g.ops[n]?).any fun o => decide (o.phase = .done) && (o.cls.isNone ||
      (g.ops.take n).all fun p => decide (p.cls = o.cls → p.phase = .done))
    let wakes : Prop := (∃ t, g.wait = .sleep t) ∧ ∃ (n : Nat) (o : Op), g.ops[n]? = some o ∧ leaves n = true ∧ o.cls.isSome = true
    let t := g.retire cycle
    t.ops = ((List.range g.ops.length).zip g.ops).filterMap (fun x => if leaves x.1 then none else some x.2)
    ∧ t.due = g.due ++ ((List.range g.ops.length).zip g.ops).filterMap (fun x => if leaves x.1 then x.2.fault else none)
    ∧ (wakes → t.wait = .ready ∧ t.since = cycle) ∧ (¬ wakes → t.wait = g.wait ∧ t.since = g.since)
    ∧ ({ t with ops := g.ops, due := g.due, wait := g.wait, since := g.since } : Group) = g

/-- What an operation whose requests a budget holds has charged (spec 18 R326; log 42): at each die and for each of the engines' classes
as many bytes of those requests as the budget still allows, which are noted as paid; nothing else changes. -/
def Sys2Proof.Claims.HeldIsCharged : Prop :=
  ∀ (s s1 : State) (gi id : Nat) (g : Group) (o : Op), s.groups[gi]? = some g → g.op? id = some o →
    let t := s.pay s1 gi id
    let due (k d : Nat) : Nat := min (s1.usedOn k d - s.usedOn k d) ((s.leftOn k d).getD (s1.usedOn k d - s.usedOn k d))
    ({ t with dies := s.dies, groups := s.groups } : State) = s
    ∧ (∀ j, j ≠ gi → t.groups[j]? = s.groups[j]?)
    ∧ (∃ h p, t.groups[gi]? = some h ∧ ({ h with ops := g.ops } : Group) = g
      ∧ h.ops.map (fun q => { q with paid := [] }) = g.ops.map (fun q => { q with paid := [] })
      ∧ h.op? id = some p ∧ ∀ d < s.dies.length, tagOf p.paid d = tagOf o.paid d + due 1 d + due 2 d)
    ∧ ∀ (d : Nat) (x : Die), s.dies[d]? = some x → ∃ y, t.dies[d]? = some y
        ∧ ({ y with bwUsed := x.bwUsed } : Die) = x
        ∧ ∀ k, y.bwUsed[k]? = (x.bwUsed[k]?).map fun n => n + if k = 1 ∨ k = 2 then due k d else 0

/-- Faults of an engine whose requests no budget holds back: a page that is not present pauses the operation, with a fault record to be
written: it leaves all else as it was before it, or as a part of it that is done left it, the rest standing as the operation's body with
the ranges that were written. Another fault completes it as a faulted one. An operation whose requests are held back has charged what the
budgets allow, and changes nothing else yet (log 42), but for a part of it that is done. -/
def Sys2Proof.Claims.EngineFaults : Prop :=
  ∀ (s s1 : State) (gi id : Nat) (g h : Group) (k : AccK) (lands : List Land) (w : List Rng), s.groups[gi]? = some g →
    s1.groups[gi]? = some h →
    (s.heldBack s1 = true → ∀ r : Run, (r = .ok s1 w lands ∨ (∃ f, r = .flt s1 w f k) ∨ ∃ b paid tried f, r = .part s1 w b paid tried f k) →
      r.finish s gi id lands = s.pay s1 gi id)
    ∧ (s.heldBack s1 = false →
      (Run.ok s1 w lands).finish s gi id [] = s1.finishOp gi id lands none
      ∧ (∀ kind a, (Run.flt s1 w (.mem kind a) k).finish s gi id lands
        = (s1.reelPoison g true (.mem kind a)).finishOp gi id lands (some { kind := kind, addr := a }))
      ∧ (∀ a, (Run.flt s1 w (.noKey a) k).finish s gi id lands = s1.finishOp gi id lands (some { kind := 5, addr := a }))
      ∧ (∀ reason b, (Run.flt s1 w (.wait reason b) k).finish s gi id lands = s)
      ∧ (∀ va level, ∃ r : FaultRec, r.seq = none ∧ r.g = gi ∧ r.op = some id ∧ r.kind = k.code ∧ r.va = va ∧ r.level = level
        ∧ r.ctx = g.ctx ∧
        let t := (Run.flt s1 w (.absent va level) k).finish s gi id lands
        t.frRecs = s.frRecs ++ [r]
        ∧ ({ t with frRecs := s.frRecs, groups := s.groups } : State) = s
        ∧ t.groups[gi]? = some (g.modOp id fun o => { o with phase := .paused })
        ∧ ∀ j, j ≠ gi → t.groups[j]? = s.groups[j]?)
      ∧ ∀ (body : OpBody) (paid : List (Nat × Nat)) (tried : State),
        let done := s1.setGroup gi (h.modOp id fun o => { o with body := body, wrote := w, paid := paid })
        let u := if s1.heldBack tried then done.pay tried gi id else done
        (∀ reason b, (Run.part s1 w body paid tried (.wait reason b) k).finish s gi id lands = u)
        ∧ ∀ va level, ∃ r : FaultRec, r.seq = none ∧ r.g = gi ∧ r.op = some id ∧ r.kind = k.code ∧ r.va = va ∧ r.level = level
          ∧ (Run.part s1 w body paid tried (.absent va level) k).finish s gi id lands
            = { u.modGroup gi (fun h => h.modOp id fun o => { o with phase := .paused }) with frRecs := u.frRecs ++ [r] })

/-- A matrix operation at the head of its core's queue starts: one of a single group once the earlier ones of its group have had their
effect; a schoolbook product once they are complete and its cluster holds a token; both halves of a pair together, with a token. A head
that has arrived in this very cycle does not start yet, for a lower quadrant may still go before it, and none starts while a schoolbook
product is under way on the engine (spec 11 R263). -/
def Sys2Proof.Claims.MatrixStarts : Prop :=
  ∀ (s : State) (core gi id : Nat) (g : Group) (o : Op), s.input = .index core → s.mxHead core = some (gi, id, g, o) →
    o.phase = .queued →
    (s.mxServes core = true ↔ (∃ q, ((s.cores[core]?).bind fun c => c.mxq.head?) = some q ∧ q.at_ < s.cycle)
      ∧ ∀ h ∈ s.groups, h.live = true → h.core = core → ∀ p ∈ h.ops, p.phase = .started →
          ∀ d a b p' q' r' dh ah bh t w, p.body ≠ .bmul d a b p' q' r' dh ah bh t w true)
    ∧ (s.mxServes core = false → exec .matrixOperationStart s = .next s)
    ∧ (s.mxServes core = true → ((∃ a, o.body = .mxmac a) ∨ (∃ l f k, o.body = .mxrd l f k) ∨ (∃ l, o.body = .mxwr l) ∨ ∃ t w, o.body = .mxz t w) →
      g.mxTurn id = true →
      (∀ h lands, s.mxRun gi g o = .ok (h, lands) →
        exec .matrixOperationStart s = .next ((s.mxPop core).setGroup gi (h.started id lands)))
      ∧ ∀ f, s.mxRun gi g o = .error f → exec .matrixOperationStart s = .next ((s.mxPop core).mxFault gi id f))
    ∧ (s.mxServes core = true → (∃ d a b p q r dh ah bh t w c, o.body = .bmul d a b p q r dh ah bh t w c) → s.hasToken core = true →
      g.mxIdle id = true →
      exec .matrixOperationStart s = .next (((s.mxPop core).modGroup gi fun h => h.started id []).mxIssued core))
    ∧ ∀ (ei oi eid oid : Nat) (eg og eh oh : Group) (eo oo : Op) (ea oa : MxArgs) (x y : Bool), o.isPair = true →
      let even := core / 2 * 2
      s.mxServes even = true → s.mxServes (even + 1) = true → core / 2 * 2 ≤ core → core ≤ even + 1 →
      s.mxHead even = some (ei, eid, eg, eo) → s.mxHead (even + 1) = some (oi, oid, og, oo) → eo.body = .mxpair ea x →
      oo.body = .mxpair oa y → s.hasToken even = true → eg.mxTurn eid = true → og.mxTurn oid = true → eg.grid = og.grid →
      eg.team = og.team → s.mxHalf ei eg ea ei eg ea = .ok eh → s.mxHalf ei eg ea oi og oa = .ok oh →
      exec .matrixOperationStart s = .next ((((s.mxPop even).mxPop (even + 1)).setGroup ei (eh.started eid (eo.status 0))).setGroup oi
        (oh.started oid (oo.status 0)))

namespace Sys2Proof.Claims

/-- MXPAIR_PAIRING (spec 11 R265): the oldest MXPAIRs of the two halves of a team that are not paired yet are paired as soon as both
exist, unless one has waited for 512 cycles: they end with PAIR_MISMATCH where their control words differ outside TILE and ASRC, enter the
queues of their cores where both have room and no pair waits before them, and wait as a pair otherwise. Where no two can be paired, the
oldest pair that waits enters the queues once both have room. -/
def Pairs : Prop :=
  ∀ (s : State) (ti : Nat) (t : Team), s.input = .index ti → s.teams[ti]? = some t →
    let free (w : PairWait) : Bool := !w.paired
    let without (a b : PairWait) : State :=
      { s with teams := s.teams.set ti { t with pairEven := t.pairEven.erase a, pairOdd := t.pairOdd.erase b } }
    let same (a b : PairWait) : Prop := (s.pairCtl a ^^^ s.pairCtl b) &&& BitVec.ofNat 54 (2 ^ 54 - 1 - 7 * 2 ^ 22 - 2 ^ 20) = 0
    let room : Prop := s.mxRoom t.core = true ∧ s.mxRoom (t.core + 1) = true
    let first (p : PairWait → Bool) (a b : PairWait) : Prop := t.pairEven.find? p = some a ∧ t.pairOdd.find? p = some b
    let able (a b : PairWait) : Prop := first free a b ∧ s.cycle < a.at_ + 512 ∧ s.cycle < b.at_ + 512
    let waiting : Prop := ∃ a b, first PairWait.paired a b
    (∀ a b, able a b →
      (¬ same a b → exec .mxpairPairing s = .next (((without a b).endPair a 0x21).endPair b 0x21))
      ∧ (same a b → room → ¬ waiting → exec .mxpairPairing s = .next (((without a b).enterPair a).enterPair b))
      ∧ (same a b → ¬ (room ∧ ¬ waiting) →
        let now (x w : PairWait) : PairWait := if w = x then { w with paired := true } else w
        let u : Team := { t with pairEven := t.pairEven.map (now a), pairOdd := t.pairOdd.map (now b) }
        exec .mxpairPairing s = .next { s with teams := s.teams.set ti u }))
    ∧ ((∀ a b, ¬ able a b) →
      (∀ a b, first PairWait.paired a b → room → exec .mxpairPairing s = .next (((without a b).enterPair a).enterPair b))
      ∧ (¬ (waiting ∧ room) → t.lost = none → exec .mxpairPairing s = .next s))

/-- MXPAIR_TIMEOUT (spec 11 R265): an MXPAIR unpaired for 512 cycles ends with PAIR_TIMEOUT and is recorded. -/
def PairTimesOut : Prop :=
  ∀ (s : State) (gi : Nat) (g : Group) (t : Team) (w : PairWait), s.input = .index gi → s.groups[gi]? = some g →
    s.teamOf g = some t → (if g.half then t.pairOdd else t.pairEven).find?
      (fun w => w.g = gi && !w.paired && decide (w.at_ + 512 ≤ s.cycle)) = some w →
    exec .mxpairTimeout s = .next (((s.modTeam g fun t =>
      { t with pairEven := t.pairEven.erase w, pairOdd := t.pairOdd.erase w }).reel g.core 0x21 (some g.ctx) g.gslot).endPair w 0x20)

/-- LOOKUP_OR_ALLOCATE (spec 04 R111, 11 R281): the name lands, or the null name with STOCK_FULL; where every ordinal is taken, or the
line cannot be read, the SKLOOK traps instead. The lines that it reads and writes are charged, and it waits where a budget holds them (18
R326; log 42). -/
def Looks : Prop :=
  ∀ (s : State) (gi : Nat) (g : Group) (o : Op) (pre post : List Op) (line : List Byte), s.input = .index gi →
    s.groups[gi]? = some g → g.live = true → g.wait = .stock → g.ops = pre ++ o :: post → o.body = .sklook line →
    (∀ p ∈ pre, ∀ l, p.body ≠ .sklook l) →
    let after (s0 : State) (n : Option Name) : State := (charged 1 (s0, o.paid) (s.lookupBytes s0 g.ctx line n)).1
    (∀ (s0 : State) (n : Option Name), s.lookup g.ctx line = .ok (s0, n) → s.heldBack (after s0 n) = true →
      exec .lookupOrAllocate s = .next (s.pay (after s0 n) gi o.id))
    ∧ (∀ (s0 : State) (n : Name), s.lookup g.ctx line = .ok (s0, some n) → s.heldBack (after s0 (some n)) = false →
      let words : List W32 := if o.hold.length = 5 then
        [n.extractLsb' 0 32, n.extractLsb' 32 32, n.extractLsb' 64 32, n.extractLsb' 96 32, if n = 0 then 0x40 else 0]
        else [if n = 0 then 0x40 else 0]
      exec .lookupOrAllocate s = .next (((after s0 (some n)).finishOp gi o.id (sLands o.hold words) none).modGroup gi fun h => h.resume 16 s.cycle))
    ∧ (∀ s0, s.lookup g.ctx line = .ok (s0, none) → s.heldBack (after s0 none) = false →
      let d : W64 := (stockDigest g.ctx line).setWidth 64
      exec .lookupOrAllocate s = .next ((((after s0 none).reel g.core 0x13 (some g.ctx) g.gslot (some (0, 0, d))).dropLook gi o.id).takeTrap gi false
        0x08 0 d none))
    ∧ (∀ k a, s.lookup g.ctx line = .error (.mem k a) →
      exec .lookupOrAllocate s = .next (((s.reelPoison g true (.mem k a)).dropLook gi o.id).takeTrap gi false 0x04 k a none))
    ∧ ∀ a, s.lookup g.ctx line = .error (.noKey a) →
      exec .lookupOrAllocate s = .next ((s.dropLook gi o.id).takeTrap gi false 0x04 0x05 a none)

end Sys2Proof.Claims

/-- What ends a wait: the end of a SLEEP, the oldest sender and receiver of a rendezvous slot (which wait while a copy has still to land in
a register that they read or write; spec 10 R251), the partner or the time-out of an MXPAIR, the lookup of an SKLOOK. That a line which cannot be read ends the SKLOOK in a memory trap is log 51. -/
def Obligations.WaitsEnd : Prop :=
  (∀ (s : State) (gi t : Nat) (g : Group), s.input = .index gi → s.groups[gi]? = some g → g.wait = .sleep t → g.live = true →
    t ≤ s.cycle → exec .sleepIntervalEnd s = .next (s.setGroup gi { g with wait := .ready, since := s.cycle }))
  ∧ (∀ (s : State) (ti k : Nat) (t : Team) (a b : RvWait), s.input = .index2 ti k → s.teams[ti]? = some t →
    t.rv.find? (fun w => w.slot = k && w.sends) = some a → t.rv.find? (fun w => w.slot = k && !w.sends) = some b →
    let free : Prop := s.unguarded a.g a.register = true ∧ s.unguarded b.g b.register = true
    (¬ free → exec .rendezvousPairing s = .next s)
    ∧ ∀ h, free → s.groups[a.g]? = some h →
    let s1 := s.settleAll a.g
    let takes (g : Group) : Group := match a.kind, b.kind with
      | .send k, .recv lanes (.v d) false =>
        g.setV d lanes ((List.range g.width).map (h.v k)) (maskOf g.width (h.marked k)) g.width
      | _, _ => g
    exec .rendezvousPairing s = .next (State.modGroup (State.modGroup
      { s1 with teams := s1.teams.modify ti fun t => { t with rv := (t.rv.erase a).erase b } }
      b.g fun g => (takes g).resume 8 s.cycle) a.g fun g => g.resume 8 s.cycle))
  ∧ Claims.Pairs ∧ Claims.PairTimesOut ∧ Claims.Looks

namespace Sys2Proof.Claims

/-- What makes a cluster want a token (spec 11 R264, R265, R269, 13 R304; log 28): a group of it that stalls for one, or, where its burst
ends in the cycle, has a matrix form next that lacks only that, be it that the group has issued in the cycle; or an operation at the head
of a queue that lacks only a token to start. -/
def TokenWanted : Prop :=
  ∀ (s : State) (die cl : Nat),
    let here (core : Nat) : Prop := dieOf core = die ∧ core % 36 / 4 = cl
    let released : Prop := ∃ d, s.dies[die]? = some d ∧ cl ∈ d.released
    let group (gi : Nat) (g : Group) : Prop := g.active = true ∧ g.atIssue = true
      ∧ (released → s.reasonOf gi g = 9 ∧ (g.pairsNext = true ∨ s.mxRoom g.core = true)) ∧ (¬ released → s.cycleReason gi g = 9)
    let head (core : Nat) : Prop := ∃ gi id g o, s.mxHead core = some (gi, id, g, o)
      ∧ (((∃ d a b p q r dh ah bh t w c, o.body = .bmul d a b p q r dh ah bh t w c) ∧ s.mxServes core = true ∧ g.mxIdle id = true)
        ∨ (o.isPair = true ∧ s.pairReady core = true ∧ s.mxServes core = true ∧ s.mxServes (partner core) = true))
    (s.wantsToken die cl = true ↔
      (∃ (gi : Nat) (g : Group), s.groups[gi]? = some g ∧ here g.core ∧ group gi g) ∨ ∃ core < s.cores.length, here core ∧ head core)

/-- The first of some clusters in ring order from a place on. -/
def ringNext (start : Nat) (cs : List Nat) (c : Nat) : Prop :=
  c ∈ cs ∧ ∀ b ∈ cs, (c + 9 - start % 9) % 9 ≤ (b + 9 - start % 9) % 9

/-- Tokens handed on by clusters that release them, in turn: to each goes the first candidate in ring order after it that has received
none. cs: the candidates; to_: who receives; left: the candidates that are left. -/
def handedOn : List Nat → List Nat → List Nat → List Nat → Prop
  | [], cs, to_, left => to_ = [] ∧ left = cs
  | r :: rs, cs, to_, left => (cs = [] ∧ handedOn rs cs to_ left)
    ∨ ∃ c rest, ringNext (r + 1) cs c ∧ to_ = c :: rest ∧ handedOn rs (cs.erase c) rest left

/-- Free tokens given in ring order, each counted from the cluster after the one that last received a token. -/
def givenOut : Nat → Nat → List Nat → List Nat → Prop
  | 0, _, _, to_ => to_ = []
  | n + 1, start, cs, to_ => (cs = [] ∧ to_ = []) ∨ ∃ c rest, ringNext start cs c ∧ to_ = c :: rest ∧ givenOut n (c + 1) (cs.erase c) rest

end Sys2Proof.Claims

/-- Power tokens (spec 11 R264, 13 R304): a die decides its grants once a cycle, when its quadrants have made their attempts. The tokens
that were released are handed on in increasing number of the releasing cluster, each to the next cluster in ring order that wants one;
then every free token goes to a cluster that is left, in ring order from the one after that which last received one. Every token that a
cluster holds stays, and none is given beyond the number that there are. -/
def Sys2Proof.Claims.TokenGrants : Prop :=
  ∀ (s : State) (die : Nat) (d : Die), s.input = .index die → s.dies[die]? = some d → d.clusters.length = 9 →
    let due : Prop := s.tokenDies.contains die = true ∧ s.quiet (fun c => dieOf c = die) = true
    let holders : Nat := (d.clusters.filter Cluster.token).length
    let lacks (c : Nat) : Prop := ∃ x, d.clusters[c]? = some x ∧ x.token = false ∧ s.wantsToken die c = true
    (¬ due → exec .tokenGrant s = .next s)
    ∧ (s.tokenDies.contains die = true ↔
        d.decided ≤ s.cycle ∧ (d.released ≠ [] ∨ (holders < s.tokens die ∧ ∃ c, lacks c)))
    ∧ (due → ∃ (t : State) (d' : Die), exec .tokenGrant s = .next t ∧ t.dies[die]? = some d' ∧ d'.released = []
      ∧ d'.decided = s.cycle + 1 ∧ d'.clusters.length = 9 ∧ (∀ j, j ≠ die → t.dies[j]? = s.dies[j]?)
      ∧ (∀ (c : Nat) (x : Cluster), d.clusters[c]? = some x → x.token = true → d'.clusters[c]? = some x)
      ∧ (∀ (c : Nat) (x y : Cluster), d.clusters[c]? = some x → x.token = false → d'.clusters[c]? = some y → y.token = true →
          s.wantsToken die c = true ∧ y.taken = s.cycle)
      ∧ (d'.clusters.filter Cluster.token).length ≤ max (s.tokens die) (holders + d.released.length)
      ∧ ((d'.clusters.filter Cluster.token).length < s.tokens die →
          ∀ (c : Nat) (x : Cluster), d'.clusters[c]? = some x → s.wantsToken die c = true → x.token = true)
      ∧ ∃ cs on left out : List Nat, (∀ c, c ∈ cs ↔ lacks c) ∧ cs.Nodup
        ∧ handedOn ((List.range 9).filter fun c => d.released.contains c) cs on left
        ∧ givenOut (s.tokens die - (holders + on.length)) (match (on.getLast?).or d.lastGrant with | some c => c + 1 | none => 0) left out
        ∧ d'.lastGrant = ((on ++ out).getLast?).or d.lastGrant
        ∧ ∀ (c : Nat) (x y : Cluster), d.clusters[c]? = some x → x.token = false → d'.clusters[c]? = some y →
            (y.token = true ↔ c ∈ on ++ out))

/-- A burst ends 8,192 cycles after its token was taken, or after 64 cycles without a matrix form, and not before; its token is
released. -/
def Sys2Proof.Claims.BurstsEnd : Prop :=
  ∀ (s : State) (die cl : Nat) (d : Die) (c : Cluster), s.input = .index2 die cl → s.dies[die]? = some d →
    d.clusters[cl]? = some c →
    let t : State := { s with dies := s.dies.set die { d with
      clusters := d.clusters.set cl { c with token := false }, released := d.released ++ [cl] } }
    (c.token = true → c.taken + 8192 ≤ s.cycle → exec .burstEndLimit s = .next t)
    ∧ (c.token = true → c.lastMx + 64 ≤ s.cycle → exec .burstEndIdle s = .next t)
    ∧ (c.token = false ∨ s.cycle < c.taken + 8192 → exec .burstEndLimit s = .next s)
    ∧ (c.token = false ∨ s.cycle < c.lastMx + 64 → exec .burstEndIdle s = .next s)

/-- The write-out of a heap that is closing, once no task is in flight: it leaves the heap without a live entry and CUESTATE closed.
Where a write faults it is fatal to the context, and what the entries before it wrote stands. CUNRUN counts the entries that were
written. -/
def Sys2Proof.Claims.CueWritesOut : Prop :=
  ∀ (s : State) (id : W32) (r : Grid), s.cue.owner = some id → s.writeOutDue id = true → s.grid? id = some r →
    let w := s.cueWriteOut id
    (∃ n ≤ s.unrunEntries.length, (w.2 = true ↔ n = s.unrunEntries.length)
      ∧ ∀ q, w.1.grid? id = some q → q.cunrun = BitVec.ofNat 32 (r.cunrun.toNat + n))
    ∧ (w.2 = true → exec .cueWriteOut s = .next w.1
      ∧ (∀ sh ∈ w.1.cue.shards, sh.entries = []) ∧ ∀ q, w.1.grid? id = some q → q.cuestate = 2)
    ∧ (w.2 = false → exec .cueWriteOut s = .next (w.1.contextFatal r.ctx dispatcherRing noSlot 0x84))

namespace Sys2Proof.Claims

/-- PAGE_WALK and INSTRUCTION_FETCH (spec 06 R154, 19 R334): the translation of a canonical address is looked up for a live group; a
group that waits for its fetch block takes the 32 bytes, or traps, or is held for translation, or waits for a walker or a budget. -/
def WalksAndFetches : Prop :=
  (∀ (s : State) (gi : Nat) (va : W64) (g : Group), s.input = .walk gi va → s.groups[gi]? = some g → g.live = true →
    va.toNat < 2 ^ 57 → exec .pageWalk s = .next (s.leafOf g.core gi false .load g.ctx va).1)
  ∧ ∀ (s s1 : State) (gi : Nat) (g : Group), s.input = .index gi → s.groups[gi]? = some g → g.live = true → g.gone = false →
      g.stopped = false → (g.wait = .ready ∨ ∃ r c b, g.wait = .again r c b) → g.hasBlock = false →
      let a : W64 := BitVec.ofNat 64 (32 * (g.pc.toNat / 32))
      (∀ p, s.resolve gi g false .fetch .g a 32 = (s1, .ok p) → exec .instructionFetch s = .next (s1.modGroup gi fun h =>
        { h with fetched := some (g.pc.toNat / 32, s1.readAt p 32) }))
      ∧ (∀ kind va, s.resolve gi g false .fetch .g a 32 = (s1, .error (.mem kind va)) → exec .instructionFetch s =
          .next ((s1.reelPoison g false (.mem kind g.pc)).takeTrap gi false 0x04 kind g.pc none))
      ∧ (∀ va, s.resolve gi g false .fetch .g a 32 = (s1, .error (.noKey va)) → exec .instructionFetch s =
          .next (s1.takeTrap gi false 0x04 0x05 g.pc none))
      ∧ (∀ va level, s.resolve gi g false .fetch .g a 32 = (s1, .error (.absent va level)) →
          exec .instructionFetch s = .next (s1.holdGroup gi false 3 g.pc level))
      ∧ ∀ reason b, s.resolve gi g false .fetch .g a 32 = (s1, .error (.wait reason b)) → exec .instructionFetch s =
          .next (s1.modGroup gi fun h => { h with wait := .again reason s.cycle b })

/-- FAULT_RECORD (spec 19 R335): the oldest fault that waits to be recorded is written to the ring's next slot under the next SEQ, and
FRTAIL advances; the 32 bytes of the slot, where memory answers there, are those of the record. A ring that is full, or not in use,
takes nothing. -/
def RecordsFaults : Prop :=
  ∀ (s : State) (r : FaultRec) (g : Group), (s.frRecs.find? fun q => q.seq.isNone) = some r → s.groups[r.g]? = some g →
    let size := (s.frbase.extractLsb' 0 4).toNat
    let inUse : Prop := s.frbase.getLsbD 4 = true ∧ (s.frtail - s.frhead).toNat ≠ 2 ^ (size + 7)
    (¬ inUse → exec .faultRecord s = .next s)
    ∧ (inUse → ∃ t, exec .faultRecord s = .next t ∧ t.frtail = s.frtail + 1 ∧ t.frSeq = s.frSeq + 1
        ∧ (t.frRecs = s.frRecs.map fun q => if q = r then { q with seq := some (s.frSeq + 1) } else q)
        ∧ let pa := s.frbase.toNat % 2 ^ 52 / 2 ^ 12 * 2 ^ 12 + 32 * (s.frtail.toNat % 2 ^ (size + 7))
          canonical s → s.physWhy pa false = none → leNat (t.readAt (.dev pa none) 32) = g.grid.toNat + g.team.toNat * 2 ^ 32
            + r.level % 2 ^ 8 * 2 ^ 80 + r.kind % 2 ^ 8 * 2 ^ 88 + g.slot % 2 ^ 8 * 2 ^ 96 + g.quad % 2 ^ 8 * 2 ^ 104
            + g.core % 2 ^ 16 * 2 ^ 112 + (s.frSeq + 1).toNat * 2 ^ 128 + r.ctx.toNat * 2 ^ 160 + r.va.toNat * 2 ^ 192)

/-- RETRY and FAIL (spec 19 R336): an engine's operation goes on, or ends as a faulted one; a group goes on from its instruction, a chain
from its first address; a group whose SVC is answered goes on after it, or its context is fatal; a failed access traps MEMORY with
kind 0x01, in a chain where its instruction continues one. A group that has left is answered without effect. -/
def AnswersFaults : Prop :=
  ∀ (s : State) (n : W32) (r : FaultRec) (g : Group), s.input = .seq n → (s.frRecs.find? fun q => q.seq = some n) = some r →
    s.groups[r.g]? = some g →
    let s1 : State := { s with frRecs := s.frRecs.erase r }
    (∀ id, r.op = some id → (g.live = true → exec .retry s = .next (s1.modGroup r.g fun h => h.modOp id Op.unpause))
      ∧ exec .fail s = .next (s1.failOp r.g id r.va))
    ∧ (g.live = false → exec .retry s = .next s1 ∧ (r.op = none → exec .fail s = .next s1))
    ∧ (r.op = none → g.live = true → r.kind ≠ 6 →
        let h : Group := { g with wait := .ready, since := s.cycle }
        (g.chain = none → exec .retry s = .next (s1.setGroup r.g h))
        ∧ (∀ c, g.chain = some c →
            exec .retry s = .next ((s1.setGroup r.g { h with pc := c.first, chain := none }).noteReplay r.g))
        ∧ (g.gone = false →
            exec .fail s = .next ((s1.setGroup r.g { h with redo := g.redo.drop 1 }).takeTrap r.g r.ch 0x04 0x01 r.va none))
        ∧ (g.gone = true →
            exec .fail s = .next ((s1.setGroup r.g { h with redo := g.redo.drop 1 }).teamExit g.grid g.team)))
    ∧ (r.op = none → g.live = true → r.kind = 6 →
        exec .retry s = .next (s1.modGroup r.g fun h => h.resume (ilen (BitVec.ofNat 256 (leNat g.instrBytes))) s.cycle)
        ∧ exec .fail s = .next (s1.contextFatal g.ctx g.core g.gslot 0x0A))

/-- TLBINV and its end (spec 19 R334): a write while one runs is ignored; DONE falls, and rises once no TLB holds a translation of the
pages of the range and context, nor any of the context where no page is counted. It stays 0 while an access of the context in memory has
still to be performed. -/
def InvalidatesTlbs : Prop :=
  (∀ (s : State) (a b : W64), s.input = .words a b →
    (s.tlbDone = false → exec .tlbinv s = .next s)
    ∧ (s.tlbDone = true → ∃ t, exec .tlbinv s = .next t ∧ t.tlbDone = false ∧ t.tlbVA.toNat = a.toNat % 2 ^ 57 / 2 ^ 16 * 2 ^ 16
        ∧ t.tlbCtx.toNat = b.toNat / 2 ^ 32 ∧ t.tlbPages.toNat = b.toNat / 2 ^ 8 % 2 ^ 24))
  ∧ ∀ s : State, (s.tlbDone = true ∨ s.accessing s.tlbCtx = true → exec .tlbInvalidateDone s = .next s)
      ∧ (s.accessing s.tlbCtx = true ↔ ∃ g ∈ s.groups, g.ctx = s.tlbCtx ∧ ∃ o ∈ g.ops, ∃ a, o.acc? = some a ∧ ∃ t ∈ a.todo,
          (∃ pa key, t.place = .dev pa key) ∨ ∃ pa, t.place = .host pa)
      ∧ (s.tlbDone = false → s.accessing s.tlbCtx = false → ∃ t, exec .tlbInvalidateDone s = .next t ∧ t.tlbDone = true
        ∧ t.cores.length = s.cores.length
        ∧ ∀ (c : Core) (n : Nat), t.cores[n]? = some c → ∀ x : Tlb, (x ∈ c.tlb2 ∨ ∃ l ∈ c.tlb1, x ∈ l) →
            ¬ (x.ctx = s.tlbCtx ∧ (s.tlbPages = 0 ∨ (x.vpage * 2 ^ x.bits < s.tlbVA.toNat + 65536 * s.tlbPages.toNat
              ∧ s.tlbVA.toNat < (x.vpage + 1) * 2 ^ x.bits))))

end Sys2Proof.Claims

/-- Translation: walks, fetches, fault records and their answers, TLB invalidation. -/
def Obligations.Translation : Prop :=
  Claims.WalksAndFetches ∧ Claims.RecordsFaults ∧ Claims.AnswersFaults ∧ Claims.InvalidatesTlbs

namespace Sys2Proof.Claims

/-- KEY_LOAD, KEY_DESTROY and a die's instant of the latter (spec 20 R356, R357): a command while one runs is ignored; the slot must be
empty, or loaded; KEYDATA is cleared when the command ends; a destroyed key's lines leave the memory-side cache of a die, dirty ones
poisoned, after the accesses that were issued under it; with the last die the slot is empty. -/
def Keys : Prop :=
  ∀ (s : State) (slot : Fin 64), 
    let ended (t : State) (st : Byte) : State :=
      { t with keySlot := slot, keyStatus := st, keyOp := 0, keydata := List.replicate 64 0, keyDies := [] }
    (s.input = .index slot →
      (s.keyOp ≠ 0 → exec .keyLoad s = .next s ∧ exec .keyDestroy s = .next s)
      ∧ (∀ k, s.keyOp = 0 → s.keys[slot.val]? = some (some k) → exec .keyLoad s = .next (ended s 0x61)
          ∧ exec .keyDestroy s = .next { s with keySlot := slot, keyOp := 2, keyDies := [0, 1, 2, 3] })
      ∧ (s.keyOp = 0 → s.keys[slot.val]? = some none → exec .keyDestroy s = .next (ended s 0x60)
          ∧ exec .keyLoad s = .next (ended { s with keys := s.keys.set slot (some (BitVec.ofNat 512 (leNat s.keydata))) } 0)))
    ∧ ∀ d : Nat, s.input = .index d → s.keyOp = 2 → d ∈ s.keyDies → s.keySlot = slot →
        let u := s.settleKey slot d
        ∃ t, exec .keyDestroySlice s = .next t
          ∧ t.cache = u.cache.filter (fun c => ¬ (c.slot = some slot ∧ 128 * c.line / 4096 % 12 / 3 = d))
          ∧ (∀ c ∈ u.cache, c.slot = some slot → 128 * c.line / 4096 % 12 / 3 = d → c.dirty = true → c.line ∈ t.poison)
          ∧ ((∃ q ∈ s.keyDies, q ≠ d) → t.keyOp = 2 ∧ t.keys = s.keys)
          ∧ ((∀ q ∈ s.keyDies, q = d) → t.keyOp = 0 ∧ t.keyStatus = 0 ∧ t.keydata = List.replicate 64 0
              ∧ t.keys = s.keys.set slot none)

/-- MAPOUT_ACK (spec 20 R352): the proposed region leaves REGIONS; the next one that waits is proposed. -/
def MapsOut : Prop :=
  ∀ s : State, (s.mapPend = false → exec .mapoutAck s = .next s)
    ∧ (s.mapPend = true → ∃ t, exec .mapoutAck s = .next t ∧ t.regions = s.regions &&& ~~~(1#12 <<< s.mapRegion.toNat)
        ∧ (s.mapWait = [] → t.mapPend = false ∧ t.mapWait = [] ∧ t.cxlEvents = s.cxlEvents)
        ∧ ∀ r rest, s.mapWait = r :: rest → t.mapPend = true ∧ t.mapRegion = r ∧ t.mapWait = rest
            ∧ t.cxlEvents = s.cxlEvents ++ [(48 * 2 ^ 30 * r.toNat, 48 * 2 ^ 30)])

/-- BANKROLE (spec 18 R322, R323): each bank's wanted role, but that a role of 3 leaves a bank as it was; a bank takes it up once no team
has an allocation in it, and the lines of a bank that no longer extends L1 leave it (04 R104). -/
def BankRoles : Prop :=
  (∀ (s : State) (core : Nat) (w : W64) (c : Core), s.input = .word core w → s.cores[core]? = some c →
    ∃ (t : State) (c' : Core), exec .bankroleWrite s = .next t ∧ t.cores[core]? = some c'
      ∧ ({ c' with bankrole := c.bankrole } : Core) = c
      ∧ ∀ b < 32, roleOf c'.bankrole b = if roleOf w b = 3 then roleOf c.bankrole b else roleOf w b)
  ∧ ∀ (s : State) (core b : Nat) (c : Core), s.input = .index2 core b → s.cores[core]? = some c → b < 32 →
      (b ∈ s.usedBanks core → exec .bankRoleTakeUp s = .next s)
      ∧ (b ∉ s.usedBanks core → ∃ (t : State) (c' : Core), exec .bankRoleTakeUp s = .next t ∧ t.cores[core]? = some c'
          ∧ ({ c' with bankact := c.bankact, l1 := c.l1 } : Core) = c
          ∧ (∀ l, l ∈ c'.l1 ↔ l ∈ c.l1 ∧ ∀ k, l.bank = some k → roleOf c'.bankact k = 1)
          ∧ ∀ k < 32, roleOf c'.bankact k = if k = b then roleOf c.bankrole b else roleOf c.bankact k)

/-- SMPCTL (spec 21 R380, R384, R385): a period below 16 counts as 16; EN from 0 to 1 starts sampling a period later, with every last slot
255 and SMPDROP 0; another write leaves the phase as it is. -/
def SampleControl : Prop :=
  ∀ (s : State) (core : Nat) (w : W64) (c : Core), s.input = .word core w → s.cores[core]? = some c →
    ∃ (t : State) (c' : Core), exec .smpctlWrite s = .next t ∧ t.cores[core]? = some c'
      ∧ c'.smp.en = w.getLsbD 31 ∧ c'.smp.allctx = w.getLsbD 30 ∧ c'.smp.period.toNat = max 16 (w.toNat % 2 ^ 16)
      ∧ (w.getLsbD 31 = true → c.smp.en = false → c'.smp.last = [255, 255, 255, 255] ∧ c'.smp.drop = 0
          ∧ c'.smp.next = s.cycle + max 16 (w.toNat % 2 ^ 16))
      ∧ (w.getLsbD 31 = false ∨ c.smp.en = true → c'.smp.last = c.smp.last ∧ c'.smp.drop = c.smp.drop ∧ c'.smp.next = c.smp.next)

/-- Registers of the driver's block (spec 00 R11): what is written to one that can be written reads back, reserved bits 0; a register
that can only be read keeps its value, as every register does that is not the one written. -/
def RegistersReadBack : Prop :=
  ∀ (s : State) (off : Nat) (w : W64), s.input = .word off w → ∃ t, exec .registerWrite s = .next t
    ∧ (off = 0 → t.regRead 0 = w &&& 0x01FFFFFFFFFFF000)
    ∧ (off = 0x30100 → t.regRead off = w &&& 0x000FFFFFFFFFF01F)
    ∧ (off = 0x3010C → t.regRead off = w &&& 0xFFFFFFFF)
    ∧ (off = 0x30120 ∨ off = 0x50008 ∨ off = 0x50010 → t.regRead off = w)
    ∧ (∀ c < 144, off = 0x10008 + 64 * c → s.cores.length = 144 → t.regRead off = w &&& 0xFFFFFFFF)
    ∧ (∀ c < 144, off = 0x54008 + 64 * c → s.cores.length = 144 → t.regRead off = w &&& 0x000FFFFFFFFFF00F)
    ∧ (off ∈ [0x30108, 0x40000, 0x40008, 0x40018, 0x40020, 0x40028, 0x40030, 0x50000, 0x50018, 0x50020, 0x52000] → t = s)
    ∧ (off ∈ [0, 0x30100, 0x3010C, 0x30120, 0x50008, 0x50010] →
        ∀ k ∈ [0, 0x30100, 0x3010C, 0x30120, 0x50008, 0x50010], k ≠ off → t.regRead k = s.regRead k)

end Sys2Proof.Claims

/-- The driver's registers: what writing them does, and the commands of the key slots and of map-out. -/
def Obligations.DriverRegisters : Prop :=
  Claims.Keys ∧ Claims.MapsOut ∧ Claims.BankRoles ∧ Claims.SampleControl ∧ Claims.RegistersReadBack

namespace Sys2Proof.Claims

/-- DEPENDENCE_CHECK (spec 18 R314): the head packet of a queue that is enabled, holds one and has none under way waits, in STATE 1,
while its dependence word is below WAITVAL; a word that cannot be read refuses the launch. -/
def DependenceHolds : Prop :=
  ∀ (s : State) (q : Nat) (bs : List Byte), s.input = .index q → q < 256 → s.queueFull q = true → s.queueBusy q = false →
    s.headPacket q = some bs →
    let p := packetOf bs
    let word := s.readD (s.queueCtx q) p.waitaddr.toNat 8
    (p.waitaddr = 0 ∨ p.seq.toNat ≠ s.lqRead q 12 4 → exec .dependenceCheck s = .next s)
    ∧ (p.waitaddr ≠ 0 → p.seq.toNat = s.lqRead q 12 4 → word = none → exec .dependenceCheck s = .next (s.takePacket q true))
    ∧ ∀ w, p.waitaddr ≠ 0 → p.seq.toNat = s.lqRead q 12 4 → word = some w →
        (leNat w < p.waitval.toNat → exec .dependenceCheck s = .next (s.lqWrite q 25 1 1))
        ∧ (p.waitval.toNat ≤ leNat w → exec .dependenceCheck s = .next s)

/-- PACKET_TAKE (spec 18 R315): of the ready queues one of highest priority is served, the first after the level's pointer, wrapping
after 255; where none is ready nothing changes. -/
def TakesInTurn : Prop :=
  ∀ s : State,
    let ready (q : Nat) : Prop := q < 256 ∧ s.queueFull q = true ∧ s.queueReady q = true
    let pri (q : Nat) : Nat := s.lqRead q 24 1 % 8
    ((∀ q, ¬ ready q) → exec .packetTake s = .next s)
    ∧ ∀ q ptr, ready q → (∀ k, ready k → pri k ≤ pri q) → s.lqPtr[pri q]? = some ptr → ptr < 256 →
        (∀ k, ready k → pri k = pri q → (q + 255 - ptr) % 256 ≤ (k + 255 - ptr) % 256) →
        exec .packetTake s = .next (s.takePacket q false)

/-- TEAM_DISPATCH (spec 01 R39, R42, 18 R316): the grid's next index, or every index of a persistent grid, joins the teams that wait; none
while a grid of a queue of higher priority has indices to dispatch, nor in a fatal context. -/
def Dispatches : Prop :=
  ∀ (s : State) (id : W32) (r : Grid), s.input = .grid id → s.grid? id = some r → (∀ g ∈ s.grids, g.id = id → g = r) →
    let open_ (g : Grid) : Prop := g ∈ s.grids ∧ g.fatal = false ∧ g.next.toNat < g.gcnt.toNat
    let turn : Prop := open_ r ∧ ∀ g, open_ g → g.pri ≤ r.pri
    (¬ turn → exec .teamDispatch s = .next s)
    ∧ (turn → r.kobj.persistent = false → exec .teamDispatch s =
        .next (State.modGrid { s with waiting := s.waiting ++ [(id, r.next)] } id fun g => { g with next := g.next + 1 }))
    ∧ (turn → r.kobj.persistent = true → exec .teamDispatch s =
        .next (State.modGrid { s with waiting := s.waiting ++ (List.range r.gcnt.toNat).map fun i => (id, BitVec.ofNat 32 i) } id
          fun g => { g with next := g.gcnt }))

/-- TEAM_ADMISSION (spec 01 R34, 18 R316): of the waiting teams that none of equal or higher priority waits before, the first that fits, in
order of priority, is admitted; where none fits nothing changes. -/
def Admits : Prop :=
  (∀ s : State, ((∀ x ∈ s.frontier, s.tryAdmit x.1 x.2 = none) → exec .teamAdmission s = .next s)
    ∧ ∀ (pre post : List (W32 × W32)) (x : W32 × W32) (t : State), s.frontier = pre ++ x :: post →
        (∀ y ∈ pre, s.tryAdmit y.1 y.2 = none) → s.tryAdmit x.1 x.2 = some t → exec .teamAdmission s = .next t)
  ∧ ∀ s : State, (s.frontier.Pairwise fun x y => s.priOf y.1 < s.priOf x.1)
      ∧ ∀ x, x ∈ s.frontier ↔ ∃ n : Nat, s.waiting[n]? = some x ∧ ∀ m < n, ∀ y : W32 × W32, s.waiting[m]? = some y → s.priOf y.1 < s.priOf x.1

/-- GRID_COMPLETION (spec 01 R41, 18 R314, R321, 19 R342): a grid completes once every index has been dispatched and every team has
exited; not before. One of a fatal context completes with CTXFATAL once what its operations have left unwritten is unspecified. -/
def Completes : Prop :=
  ∀ (s : State) (id : W32) (r : Grid), s.input = .grid id → s.grid? id = some r →
    let all : Prop := r.next = r.gcnt ∧ r.exited = r.gcnt.toNat ∧ r.running = 0 ∧ r.pre = [] ∧ ∀ x ∈ s.waiting, x.1 ≠ id
    (r.fatal = false → ¬ all → exec .gridCompletion s = .next s)
    ∧ (r.fatal = false → all → exec .gridCompletion s = .next (s.completeGrid id))
    ∧ (r.fatal = true → exec .gridCompletion s = .next ((s.abandonAll fun g => g.grid = id).completeFatal id))

end Sys2Proof.Claims

/-- Launch: dependence, the turns of the queues, dispatch and admission in order, completion. That a queue whose descriptor cannot be read is
not enabled is log 94. -/
def Obligations.Launching : Prop :=
  Claims.DependenceHolds ∧ Claims.TakesInTurn ∧ Claims.Dispatches ∧ Claims.Admits ∧ Claims.Completes

namespace Sys2Proof.Claims

/-- A command of PECMD that has ended with a status. -/
def answered (s : State) (image : W64) (grid team : W32) (target : BitVec 16) (st : Byte) : State :=
  { s with pecmd := { image := image, grid := grid, team := team, target := target, status := st, op := 0 } }

/-- The address that an array of n64 image addresses gives for a team (spec 19 R337). -/
def imageAddr (bs : List Byte) (team : W32) : W64 := BitVec.ofNat 64 (leNat ((bs.drop (8 * team.toNat)).take 8))

/-- PREEMPT (spec 19 R337, R338): a command while one runs is ignored; a grid or team that is not there, one team of a persistent grid, and
a grid of a fatal context are not found; an image that is not aligned, and an array that cannot be read, are bad; else the team, or with
TEAMID 0xFFFF_FFFF every team of the grid, stops. That NOTFOUND comes before BADIMG is log 70. -/
def Preempts : Prop :=
  ∀ (s : State) (image : W64) (grid team : W32) (target : BitVec 16), s.input = .team image grid team target →
    (s.pecmd.op ≠ 0 → exec .preempt s = .next s)
    ∧ (s.pecmd.op = 0 → s.grid? grid = none → exec .preempt s = .next (answered s image grid team target 0x58))
    ∧ ∀ r, s.pecmd.op = 0 → s.grid? grid = some r →
        let here := s.teams.filter fun t => t.grid = grid && (team = 0xFFFFFFFF || t.id = team)
        let found : Prop := here ≠ [] ∧ r.fatal = false ∧ (r.kobj.persistent = true → team = 0xFFFFFFFF)
        let c : PeCmd := { image := image, grid := grid, team := team, target := target, status := s.pecmd.status, op := 1 }
        let s0 : State := { s with pecmd := c }
        let array := s0.readD r.ctx image.toNat (8 * r.gcnt.toNat)
        (¬ found → exec .preempt s = .next (answered s image grid team target 0x58))
        ∧ (found → image.toNat % 4096 ≠ 0 → exec .preempt s = .next (answered s image grid team target 0x57))
        ∧ (found → team = 0xFFFFFFFF → array = none → exec .preempt s = .next (answered s image grid team target 0x57))
        ∧ (∀ t, found → team ≠ 0xFFFFFFFF → here = [t] → image.toNat % 4096 = 0 →
            exec .preempt s = .next (s0.stopTeam grid team image))
        ∧ ∀ bs, found → team = 0xFFFFFFFF → array = some bs → image.toNat % 4096 = 0 →
            ((∃ n < r.gcnt.toNat, (imageAddr bs (BitVec.ofNat 32 n)).toNat % 4096 ≠ 0) →
              exec .preempt s = .next (answered s image grid team target 0x57))
            ∧ ((∀ n < r.gcnt.toNat, (imageAddr bs (BitVec.ofNat 32 n)).toNat % 4096 = 0) → (∀ t ∈ here, t.id.toNat < r.gcnt.toNat) →
              exec .preempt s = .next (here.foldl (fun s t => s.stopTeam grid t.id (imageAddr bs t.id)) s0))

/-- PREEMPT_IMAGE_WRITE (spec 19 R338): once the operations of the stopped teams have drained, their images are written, with the counts
of the cycle taken (R343; log 84), and they leave;
an image that faults lets them go on, with BADIMG. The teams of a context that has become fatal meanwhile are not saved. -/
def WritesImages : Prop :=
  ∀ s : State,
    let ts := s.teams.filter fun t => t.stop.isSome && !((s.grid? t.grid).any Grid.fatal)
    (s.pecmd.op ≠ 1 ∨ s.drained = false → exec .preemptImageWrite s = .next s)
    ∧ (s.pecmd.op = 1 → s.drained = true → ts = [] → exec .preemptImageWrite s = .next (s.peDone 0x58))
    ∧ (∀ s1, s.pecmd.op = 1 → s.drained = true → ts ≠ [] → (ts.foldl State.commitTeam s).writeImages ts = some s1 →
        exec .preemptImageWrite s = .next ((ts.foldl State.leave s1).peDone 0))
    ∧ (s.pecmd.op = 1 → s.drained = true → ts ≠ [] → (ts.foldl State.commitTeam s).writeImages ts = none →
        ∃ t, exec .preemptImageWrite s = .next t ∧ t.pecmd.op = 0 ∧ t.pecmd.status = 0x57)

/-- What a restore of the teams named does once its target is good (spec 19 R337, R341): an image that cannot be read or does not match is
BADIMG; where some team has no place, NOFIT; else all are placed, then filled. addr: each team's image. -/
def RestoresAll (s s0 : State) (r : Grid) (mine : List PreTeam) (addr : PreTeam → W64) (image : W64) (grid team : W32)
    (target : BitVec 16) : Prop :=
  let ims := mine.map fun p => (p.team, addr p)
  let s1 := s0.modGrid grid fun g => { g with pre := g.pre.filter fun q => !(mine.map PreTeam.team).contains q.team }
  ((∃ p ∈ mine, (addr p).toNat % 4096 ≠ 0) ∨ s0.readHeads r ims = none →
    exec .restore s = .next (answered s image grid team target 0x57))
  ∧ ∀ ps, (∀ p ∈ mine, (addr p).toNat % 4096 = 0) → s0.readHeads r ims = some ps →
      (ps.foldlM (fun s p => s.placeSaved r target p) s1 = none → exec .restore s = .next (answered s image grid team target 0x53))
      ∧ ∀ s2, ps.foldlM (fun s p => s.placeSaved r target p) s1 = some s2 →
          (ps.foldlM (fun s p => s.fillTeam r p) s2 = none → exec .restore s = .next (answered s image grid team target 0x57))
          ∧ ∀ s3, ps.foldlM (fun s p => s.fillTeam r p) s2 = some s3 → exec .restore s = .next ((s3.spreadCue grid).peDone 0)

/-- An image whose header can be read is taken with the record of its team, if it is an image of that team of that grid. -/
def HeadsMatch : Prop :=
  ∀ (s : State) (r : Grid) (t : W32) (a : W64) (p : PreTeam) (bs : List Byte), r.pre.filter (fun p => p.team = t) = [p] →
    s.readD r.ctx a.toNat 256 = some bs →
    s.readHeads r [(t, a)] =
      if (imageHead bs).ok = true ∧ (imageHead bs).grid = r.id ∧ (imageHead bs).team = t
      then some [({ p with image := a }, imageHead bs)] else none

/-- RESTORE (spec 19 R337, R341) of one team, or with TEAMID 0xFFFF_FFFF of every team that was saved, all or none: ignored while a command
runs; the teams and images as for PREEMPT; a core that does not suit is BADMAP, one without room NOFIT; else the teams are placed and
filled, and go on. The order NOTFOUND, BADMAP, BADIMG is log 70. -/
def Restores : Prop :=
  ∀ (s : State) (image : W64) (grid team : W32) (target : BitVec 16), s.input = .team image grid team target →
    (s.pecmd.op ≠ 0 → exec .restore s = .next s)
    ∧ (s.pecmd.op = 0 → s.grid? grid = none → exec .restore s = .next (answered s image grid team target 0x58))
    ∧ ∀ r, s.pecmd.op = 0 → s.grid? grid = some r →
        let c : PeCmd := { image := image, grid := grid, team := team, target := target, status := s.pecmd.status, op := 2 }
        let s0 : State := { s with pecmd := c }
        let mine := r.pre.filter fun p => team = 0xFFFFFFFF || p.team = team
        let found : Prop := mine ≠ [] ∧ r.fatal = false ∧ (r.kobj.persistent = true → team = 0xFFFFFFFF)
        let core := target.toNat
        let badCore : Prop := (144 ≤ core ∧ core < 0xFFFE) ∨ (core < 144 ∧ r.kobj.pair = true ∧ core % 2 = 1)
        let array := s0.readD r.ctx image.toNat (8 * r.gcnt.toNat)
        (¬ found → exec .restore s = .next (answered s image grid team target 0x58))
        ∧ (found → badCore → exec .restore s = .next (answered s image grid team target 0x52))
        ∧ (found → ¬ badCore → image.toNat % 4096 ≠ 0 → exec .restore s = .next (answered s image grid team target 0x57))
        ∧ (found → ¬ badCore → team = 0xFFFFFFFF → array = none →
            exec .restore s = .next (answered s image grid team target 0x57))
        ∧ (found → ¬ badCore → team ≠ 0xFFFFFFFF → image.toNat % 4096 = 0 →
            RestoresAll s s0 r mine (fun _ => image) image grid team target)
        ∧ ∀ bs, found → ¬ badCore → team = 0xFFFFFFFF → array = some bs → image.toNat % 4096 = 0 →
            ((∃ n < r.gcnt.toNat, (imageAddr bs (BitVec.ofNat 32 n)).toNat % 4096 ≠ 0) →
              exec .restore s = .next (answered s image grid team target 0x57))
            ∧ ((∀ n < r.gcnt.toNat, (imageAddr bs (BitVec.ofNat 32 n)).toNat % 4096 = 0) →
              (∀ p ∈ mine, p.team.toNat < r.gcnt.toNat) →
              RestoresAll s s0 r mine (fun p => imageAddr bs p.team) image grid team target)

end Sys2Proof.Claims

/-- Pre-emption and restore: the commands' statuses, and what they do. -/
def Obligations.PreemptionAndRestore : Prop := Claims.Preempts ∧ Claims.WritesImages ∧ Claims.HeadsMatch ∧ Claims.Restores

namespace Sys2Proof.Claims

/-- Errors of memory (spec 20 R351, R352): in a region that is present a corrected error is counted, and proposes its region for map-out
once more than MAPTHR errors of the DRAM die lie within 24 hours; an uncorrectable one is counted, and poisons its line; a scrub
alone changes nothing. -/
def MemoryErrors : Prop :=
  (∀ s : State, exec .patrolScrub s = .next s)
  ∧ ∀ (s : State) (pa : Nat), s.input = .index pa →
      let m := pa / 4096 % 12
      let k := pa / (48 * 2 ^ 30)
      let now := s.nstime.toNat
      let times := (s.ceTimes.filter fun t => now < t.2.2 + 86400000000000) ++ [(m, k, now)]
      let n := (times.filter fun t => t.1 = m && t.2.1 = k).length
      let up (c : W32) : W32 := if c = 0xFFFFFFFF then c else c + 1
      (¬ (k < 12 ∧ s.regions.getLsbD k = true) → exec .correctedError s = .next s ∧ exec .uncorrectableMemoryError s = .next s)
      ∧ (k < 12 → s.regions.getLsbD k = true →
          (∃ t, exec .correctedError s = .next t ∧ t.rasCe = s.rasCe.modify m up ∧ t.ceTimes = times ∧ t.regions = s.regions
            ∧ (s.mapthr = 0 ∨ n ≤ s.mapthr.toNat → t.mapPend = s.mapPend ∧ t.mapWait = s.mapWait ∧ t.cxlEvents = s.cxlEvents)
            ∧ (s.mapthr ≠ 0 → s.mapthr.toNat < n → s.mapPend = false → t.mapPend = true ∧ t.mapRegion.toNat = k
                ∧ t.cxlEvents = s.cxlEvents ++ [(48 * 2 ^ 30 * k, 48 * 2 ^ 30)]))
          ∧ ∃ t, exec .uncorrectableMemoryError s = .next t ∧ t.rasUe = s.rasUe.modify m up ∧ pa / 128 ∈ t.poison
            ∧ (∀ l ∈ s.poison, l ∈ t.poison) ∧ t.mem = s.mem)

/-- Fatal faults (spec 19 R342, 21 R369): a data error is fatal to its context; a core's fault fences it, a die's the die's cores, once; each
is recorded as FATAL, with its level and cause and stamped Tf, the last record of the ring that finds it, which freezes; the freeze is
broadcast. -/
def FatalFaults : Prop :=
  (∀ (s : State) (id : W32) (core : Nat), s.input = .ctx id core → core < 144 →
    exec .contextDataError s = .next (s.contextFatal id core noSlot 0x81))
  ∧ (∀ (s : State) (c : Nat) (x : Core), s.input = .index c → s.cores[c]? = some x →
    (x.fenced = true → exec .coreHardwareFault s = .next s)
    ∧ (x.fenced = false → exec .coreHardwareFault s = .next ((s.fatal c none noSlot 1 0x82).fence [c])))
  ∧ (∀ (s : State) (d : Nat) (x : Die), s.input = .index d → s.dies[d]? = some x →
    (x.down = true → exec .dieControlFault s = .next s)
    ∧ (x.down = false → ∃ t, exec .dieControlFault s = .next t
        ∧ t = { (s.fatal (144 + d) none noSlot 2 0x83).fence ((List.range 36).map fun i => 36 * d + i) with dies := t.dies }
        ∧ ∀ y, t.dies[d]? = some y → y.down = true))
  ∧ ∀ (s : State) (ring : Nat) (ctx : Option W32) (slot level cause : Nat) (r : Ring), s.rings[ring]? = some r → r.frozen = false →
      let t := s.fatal ring ctx slot level cause
      t.assembling = true
      ∧ (∃ q, t.rings[ring]? = some q ∧ q.frozen = true ∧ q.recs.getLast? = some (BitVec.ofNat 128 (s.nstime.toNat % 2 ^ 40 * 2 ^ 88
          + 0x30 * 2 ^ 81 + (match ctx with
            | none => 0xFFFF
            | some c => if c.toNat ≤ 65533 then c.toNat else 0xFFFD) * 2 ^ 65 + (slot + level * 2 ^ 53 + cause * 2 ^ 45) % 2 ^ 65)))
      ∧ (s.assembling = false → t.tf = s.nstime ∧ t.origin = ring) ∧ (s.assembling = true → t.tf = s.tf)

/-- What a fatal fault contains (spec 19 R342): every group of the context stops, its grids are dispatched no further and end as fatal;
groups of other contexts are untouched. -/
def Contains : Prop :=
  ∀ (s : State) (id : W32),
    let t := s.contain id
    (t.ctx id).fatal = true ∧ (∀ g ∈ t.groups, g.ctx = id → g.live = false) ∧ (∀ g ∈ t.grids, g.ctx = id → g.fatal = true)
    ∧ t.groups.length = s.groups.length ∧ ∀ (n : Nat) (g : Group), s.groups[n]? = some g → g.ctx ≠ id → t.groups[n]? = some g

/-- CORE_RESET (spec 19 R342): the core, or with 144 + d a die and its cores, returns to service. -/
def CoreResets : Prop :=
  (∀ (s : State) (c : Nat), s.input = .index c → c < 144 → exec .coreReset s = .next (s.resetCore c)
    ∧ ∀ x, (s.resetCore c).cores[c]? = some x → x.fenced = false ∧ x.mxq = [] ∧ x.bankact = x.bankrole ∧ x.tlb2 = [] ∧ x.l1 = []
        ∧ x.tlb1 = [[], [], [], []])
  ∧ ∀ (s : State) (d : Nat), s.input = .index (144 + d) → d < 4 →
      ∃ t, exec .coreReset s = .next t ∧ (∀ y, t.dies[d]? = some y → y.down = false)

/-- Heat (spec 18 R319, R320): a core becomes hot at 95 °C or at four droop events within 10 µs, and is recorded; it cools once it has
spent 200 µs at or below 88 °C without one. -/
def Heat : Prop :=
  (∀ (s : State) (core : Nat) (c : Core), s.input = .index core → s.cores[core]? = some c →
    let recent (l : List Nat) : List Nat := l.filter fun t => s.nstime.toNat < t + 10000
    let hot : Prop := c.hot = false ∧ (95 ≤ c.temp.toNat ∨ 4 ≤ (recent c.droops).length)
    let cool : Prop := c.hot = true ∧ ∃ t, c.coolSince = some t ∧ t + 200000 ≤ s.nstime.toNat
    (hot → exec .coreHot s = .next (({ s with cores := s.cores.set core { c with hot := true } } : State).reel core 0x22 none
      (2 ^ 64 + c.temp.toNat)))
    ∧ (¬ hot → exec .coreHot s = .next s)
    ∧ (cool → exec .coreHotClear s = .next (({ s with cores := s.cores.set core { c with hot := false } } : State).reel core 0x22 none
        c.temp.toNat))
    ∧ (¬ cool → exec .coreHotClear s = .next s)
    ∧ ∃ (t : State) (x : Core), exec .droopEvent s = .next t ∧ t.cores[core]? = some x
        ∧ x.droops = recent c.droops ++ [s.nstime.toNat] ∧ x.coolSince = (if c.temp.toNat ≤ 88 then some s.nstime.toNat else none)
        ∧ x.hot = (c.hot || decide (95 ≤ c.temp.toNat) || decide (3 ≤ (recent c.droops).length)))
  ∧ ∀ (s : State) (core : Nat) (w : W64) (c : Core), s.input = .word core w → s.cores[core]? = some c →
      ∃ (t : State) (x : Core), exec .temperatureSensorReading s = .next t ∧ t.cores[core]? = some x
        ∧ x.temp.toNat = w.toNat % 256
        ∧ x.coolSince = (if 88 < w.toNat % 256 then none else c.coolSince.or (some s.nstime.toNat))
        ∧ x.hot = (c.hot || decide (95 ≤ w.toNat % 256)
            || decide (4 ≤ (c.droops.filter fun t => s.nstime.toNat < t + 10000).length))

/-- BUDGET_WINDOW (spec 18 R326): every die is in the window of the present microsecond, and in a new one no class has used any of its
budget. -/
def Windows : Prop :=
  ∀ s : State, ∃ t, exec .budgetWindow s = .next t ∧ t.dies.length = s.dies.length
    ∧ ∀ (n : Nat) (d e : Die), s.dies[n]? = some d → t.dies[n]? = some e → e.bwWindow = max d.bwWindow (s.nstime.toNat / 1000)
        ∧ (d.bwWindow < s.nstime.toNat / 1000 → ∀ k < 5, e.bwUsed[k]? = some 0)

end Sys2Proof.Claims

/-- Memory errors, fatal faults, core resets, heat and budget windows. -/
def Obligations.ErrorsAndHeat : Prop :=
  Claims.MemoryErrors ∧ Claims.FatalFaults ∧ Claims.Contains ∧ Claims.CoreResets ∧ Claims.Heat ∧ Claims.Windows

namespace Sys2Proof.Claims

/-- Whether every die can be reached from every other over the die-to-die links that train (spec 20 R353). -/
def reached (f : BringupFound) : Bool :=
  ({ State.reset with links := (List.range 18).map fun p => linkOf ((f.lanes[p]?).getD 0) } : State).allReached

/-- How bring-up ends from step 3 on (spec 20 R358): failed for want of a region, whereupon the CXL ports train for CXL.io alone; for want
of a CXL port, or of a way between two dies, which is reported on the management sideband; or complete. The sensors have been read, and a
core read at 95 °C or more is hot (18 R319). -/
def Trained (f : BringupFound) (t : State) : Prop :=
  t.regions = f.regions
  ∧ (f.regions = 0 → t.bringState = 2 ∧ t.bringFail = 3 ∧ t.bringStep = 2 ∧ t.cxl = 0 ∧ t.cxlIo = f.cxl)
  ∧ (f.regions ≠ 0 → f.cxl = 0 → t.bringState = 2 ∧ t.bringFail = 4 ∧ t.bringStep = 3 ∧ t.sideband.getLast? = some 0x04)
  ∧ (f.regions ≠ 0 → f.cxl ≠ 0 → reached f = false → t.bringState = 2 ∧ t.bringFail = 5 ∧ t.bringStep = 3
      ∧ t.sideband.getLast? = some 0x05)
  ∧ (∀ (n : Nat) (c : Core), t.cores[n]? = some c → c.temp = (f.temps[n]?).getD 0 ∧ (c.hot = true ↔ 95 ≤ c.temp.toNat))
  ∧ (f.regions ≠ 0 → f.cxl ≠ 0 → reached f = true → t.bringState = 1 ∧ t.bringFail = 0 ∧ t.bringStep = 5 ∧ t.cxl = f.cxl)

/-- What no reset and no loss of power changes: flash and the Slates in it, and the host's memory. -/
def Stays (s t : State) : Prop :=
  t.flash0 = s.flash0 ∧ t.flash1 = s.flash1 ∧ t.slates = s.slates ∧ t.slateSeq = s.slateSeq ∧ t.hostMem = s.hostMem

/-- Nothing runs. -/
def Idle (t : State) : Prop :=
  t.groups = [] ∧ t.teams = [] ∧ t.grids = [] ∧ t.waiting = [] ∧ t.ctxs = [] ∧ t.cue.owner = none

end Sys2Proof.Claims

/-- The resets. A cold reset waits for an assembly; firmware that does not verify, and no valid image, end it; else bring-up trains. A
warm reset keeps the image, the rings and NSTIME. A loss of power empties memory and ends an assembly. Each leaves nothing running,
and flash as it was. The model's choices: that firmware is signed by the scheme of R375 (log 96; its key is open, log 21), and what of
memory a cold or warm reset keeps (log 33). -/
def Obligations.Resets : Prop :=
  (∀ (s : State) (f : BringupFound), s.input = .found f →
    (s.assembling = true → exec .coldReset s = .next { s with coldPending := some f })
    ∧ (s.assembling = false → ∃ t, exec .coldReset s = .next t ∧ Claims.Stays s t ∧ Claims.Idle t ∧ t.mem = s.mem
        ∧ (f.genuine = false → t.bringState = 2 ∧ t.bringFail = 1 ∧ t.bringStep = 0 ∧ t.cxl = 0 ∧ t.cxlIo = f.cxl)
        ∧ (f.genuine = true → s.bestCopy = none → t.bringState = 2 ∧ t.bringFail = 2 ∧ t.bringStep = 1 ∧ t.cxl = 0 ∧ t.cxlIo = f.cxl)
        ∧ ∀ one bs, f.genuine = true → s.bestCopy = some (one, bs) → Claims.Trained f t ∧ t.image = imageRecords bs
            ∧ t.flashActive = one ∧ t.nstime = 0 ∧ t.firmware = f.firmware))
  ∧ (∀ f : BringupFound, f.genuine = rsaVerify (sha256 f.firmware) f.firmwareSig)
  ∧ (∀ (s : State) (f : BringupFound), s.input = .found f → (∀ r ∈ s.image, imageAllows r.1 r.2 = true) →
    ∃ t, exec .warmReset s = .next t ∧ Claims.Stays s t ∧ Claims.Idle t ∧ t.mem = s.mem ∧ Claims.Trained f t ∧ t.image = s.image
      ∧ t.imageSeq = s.imageSeq ∧ t.firmware = s.firmware ∧ t.nstime = s.nstime ∧ t.assembling = s.assembling
      ∧ t.rings.map (fun (r : Ring) => (r.recs, r.frozen, r.lost)) = s.rings.map fun (r : Ring) => (r.recs, r.frozen, r.lost))
  ∧ ∀ s : State, ∃ t, exec .powerLoss s = .next t ∧ Claims.Stays s t ∧ Claims.Idle t ∧ t.mem = [] ∧ t.assembling = false
      ∧ t.coldPending = none ∧ t.bringState = 0 ∧ t.keys = List.replicate 64 none

namespace Sys2Proof.Claims

/-- The link that a state and a number of working lanes give: training; up with 8 lanes, degraded with 4; else down. -/
def linkIn (st : BitVec 2) (lanes : BitVec 4) : Link :=
  if st = 1 then { lanes := 0, state := 1 } else if st = 0 then { lanes := 0, state := 0 }
  else if lanes = 8 then { lanes := 8, state := 2 } else if lanes = 4 then { lanes := 4, state := 3 } else { lanes := 0, state := 0 }

/-- LINK_STATE_CHANGE (spec 20 R345, R348, R354): the link named takes the state that its lanes allow; a CXL port has trained while it is
up. -/
def LinksChange : Prop :=
  ∀ (s : State) (n : Nat) (st : BitVec 2) (lanes : BitVec 4), s.input = .link n st lanes →
    (n < 18 → exec .linkStateChange s = .next { s with links := s.links.set n (linkIn st lanes) })
    ∧ (∀ k < 2, n = 18 + k → ∃ t, exec .linkStateChange s = .next t ∧ ({ t with cxl := s.cxl } : State) = s
        ∧ ∀ j < 2, t.cxl.getLsbD j = if j = k then decide (2 ≤ st.toNat) else s.cxl.getLsbD j)

/-- Accesses of the host (spec 20 R346, R347): through the window, which holds the first MEMWIN GiB of device memory, stored bytes are
read and written under no key; a host agent reads and writes the host's memory. -/
def HostAccesses : Prop :=
  (∀ (s : State) (pa n : Nat), s.input = .host (.read pa n) →
    (s.inWindow pa n = false → exec .hostMemoryAccess s = .next s)
    ∧ (s.inWindow pa n = true → exec .hostMemoryAccess s = .next { (s.storedBytes pa n).2 with hostReply := (s.storedBytes pa n).1 })
    ∧ exec .hostAgentAccess s = .next { s with hostReply := Memory.read s.hostMem pa n })
  ∧ (∀ (s : State) (pa : Nat) (bs : List Byte), s.input = .host (.write pa bs) →
    (s.inWindow pa bs.length = false → exec .hostMemoryAccess s = .next s)
    ∧ (s.inWindow pa bs.length = true → exec .hostMemoryAccess s = .next ((lineChunks pa bs.length).foldl
        (fun s c => s.writeDev c.1 ((bs.drop (c.1 - pa)).take c.2) none) s))
    ∧ (Memory.wf s.hostMem = true → ∃ t, exec .hostAgentAccess s = .next t ∧ ({ t with hostMem := s.hostMem } : State) = s
        ∧ ∀ a, Memory.get t.hostMem a = if pa ≤ a ∧ a < pa + bs.length then (bs[a - pa]?).getD 0 else Memory.get s.hostMem a))
  ∧ ∀ (s : State) (pa n : Nat), s.inWindow pa n = true → pa + n ≤ 2 ^ 30 * s.memwin.toNat

/-- Messages of chip-to-chip ports (spec 20 R354, R355; logs 36, 37, 55): a message has 256 bytes; a port that is down is busy, as one is whose queue holds
16 messages; received ones are read oldest first. -/
def PortMessages : Prop :=
  ∀ (s : State) (p : Nat) (x : Port), s.ports[p]? = some x →
    (∀ m, s.input = .bytes p m →
      (m.length ≠ 256 → ∃ t, exec .portSend s = .next t ∧ t.mailCode = .error ∧ t.mailbox = [] ∧ t.ports = s.ports)
      ∧ (m.length = 256 → s.linkUp p = false → ∃ t, exec .portSend s = .next t ∧ t.mailCode = .busy ∧ t.ports = s.ports)
      ∧ (m.length = 256 → s.linkUp p = true → ∃ t, exec .portSend s = .next t
          ∧ (t.mailCode = .busy ∧ t.ports = s.ports ∧ 16 ≤ x.out.length
            ∨ t.mailCode = .success ∧ ∃ y l, t.ports = s.ports.set p y ∧ y.inn = x.inn ∧ y.out = l ++ [m] ∧ l <:+ x.out ∧ l.length < 16))
      ∧ (p < 12 → m.length = 256 → s.linkUp p = true → exec .portMessageReceive s =
          .next { s with ports := s.ports.set p { x with inn := x.inn ++ [m] } })
      ∧ (m.length ≠ 256 ∨ s.linkUp p = false → exec .portMessageReceive s = .next s))
    ∧ (s.input = .index p →
        (x.inn = [] → exec .portRecv s = .next (s.reply .success []))
        ∧ ∀ m ms, x.inn = m :: ms → exec .portRecv s =
            .next { s with ports := s.ports.set p { x with inn := ms }, mailbox := m, mailCode := .success })

/-- Mailbox commands (spec 20 R355, 21 R377; logs 36, 37): the opcodes that name them, and their replies. -/
def MailboxCommands : Prop :=
  ([0xC000, 0xC001, 0xC002, 0xC003, 0xC010, 0xC011, 0xC012, 0xC020, 0xC021].map mailCommand =
    [Instr.getIdentity, .getBringup, .stageConfig, .attest, .slateList, .slateRead, .slateAck, .portSend, .portRecv].map some) ∧
  (∀ s : State, exec .getIdentity s = .next (s.reply .success (leBytes 16 Config.serial.toNat ++ leBytes 4 Config.fwVersion.toNat
      ++ [0, 0, 0, 0] ++ leBytes 8 s.imageSeq.toNat ++ leBytes 2 Config.certificate.length ++ [0, 0] ++ Config.certificate))
    ∧ exec .getBringup s = .next (s.reply .success (leBytes 4 s.bringup.toNat ++ leBytes 8 s.regions.toNat ++ s.bringLog)))
  ∧ (∀ (s : State) (n : Nat) (bs : List Byte), s.input = .bytes n bs →
    (bs.length ≠ 32 → exec .attest s = .next (s.reply .error []))
    ∧ (bs.length = 32 → let m := sha256 s.firmware ++ sha256 s.appliedBody ++ bs
        exec .attest s = .next (s.reply .success (m ++ signature m)))
    ∧ let all := s.staged.take n ++ List.replicate (n - s.staged.length) none ++ bs.map some ++ s.staged.drop (n + bs.length)
      let image := all.map fun b => b.getD 0
      let whole : Prop := ∀ i < max 64 (imageLen image), ∃ b, all[i]? = some (some b)
      (¬ whole → exec .stageConfig s = .next { s with staged := all, mailbox := [], mailCode := .success })
      ∧ (whole → imageValid image = false → exec .stageConfig s =
        .next { s with staged := [], mailbox := [], mailCode := .error })
      ∧ (whole → imageValid image = true →
        (s.flashActive = true → exec .stageConfig s =
          .next { s with staged := [], flash0 := { bytes := image }, mailbox := [], mailCode := .success })
        ∧ (s.flashActive = false → exec .stageConfig s =
          .next { s with staged := [], flash1 := { bytes := image }, mailbox := [], mailCode := .success })))

/-- The Slate commands (spec 21 R376, R377; log 36): each slot's state, SEQ, TF and TOTAL, then SLATELOST; a slice of a view; an
acknowledgement. An empty slot, and a view of 0xFFFD or 0xFFFE, are errors. -/
def SlateCommands : Prop :=
  (∀ s : State, ∃ t, exec .slateList s = .next t ∧ t.mailCode = .success
    ∧ ({ t with mailbox := s.mailbox, mailCode := s.mailCode } : State) = s
    ∧ (∀ i < 8, (t.mailbox.drop (32 * i)).take 32 = match (s.slates[i]?).getD none with
        | none => List.replicate 32 0
        | some x => leBytes 8 (if x.acked then 2 else 1) ++ leBytes 8 x.seq.toNat ++ leBytes 8 x.tf.toNat ++ leBytes 8 x.total)
    ∧ t.mailbox.drop 256 = leBytes 4 s.slateLost.toNat)
  ∧ (∀ (s : State) (i off n : Nat) (view : BitVec 16), s.input = .slate i view off n →
    (s.slates[i]? = some none ∨ view = 0xFFFD ∨ view = 0xFFFE → exec .slateRead s = .next (s.reply .error []))
    ∧ ∀ x, s.slates[i]? = some (some x) → view ≠ 0xFFFD → view ≠ 0xFFFE →
        exec .slateRead s = .next (s.reply .success (((x.view view.toNat).drop off).take n)))
  ∧ ∀ (s : State) (i : Nat), s.input = .index i →
    (s.slates[i]? = some none → exec .slateAck s = .next (s.reply .error []))
    ∧ ∀ x, s.slates[i]? = some (some x) →
        exec .slateAck s = .next { s with slates := s.slates.set i (some { x with acked := true }), mailbox := [], mailCode := .success }

end Sys2Proof.Claims

/-- The host's side: links, accesses to memory, port messages, mailbox commands. The model's choices: the layout of mailbox answers in part
(log 36), answers to inputs out of range (log 37), which queued messages have left (log 55), and that attestations are signed by the scheme
of R375 (log 96). -/
def Obligations.HostSide : Prop :=
  Claims.LinksChange ∧ Claims.HostAccesses ∧ Claims.PortMessages ∧ Claims.MailboxCommands ∧ Claims.SlateCommands

namespace Sys2Proof.Claims

/-- The last record that a reader of the ring finds (spec 21 R361, R364). -/
def Recorded (t : State) (n : Nat) (r : BitVec 128) : Prop := ∃ q, t.rings[n]? = some q ∧ q.recs.getLast? = some r

/-- Every ring that still records has an event as its last. -/
def RecordedInAll (s t : State) (r : BitVec 128) : Prop := ∀ n < 148, ∀ q, s.rings[n]? = some q → q.frozen = false → Recorded t n r

/-- A record of no context (spec 21 R362): its time in nanoseconds modulo 2^40, its code and its payload. -/
def event (time : W64) (code payload : Nat) : BitVec 128 :=
  BitVec.ofNat 128 (time.toNat % 2 ^ 40 * 2 ^ 88 + code * 2 ^ 81 + 0xFFFF * 2 ^ 65 + payload)

/-- An EPOCH record: bits 63 to 40 of the time (spec 21 R363). -/
def epochEvent (time : W64) : BitVec 128 := event time 0x38 (time.toNat / 2 ^ 40)

/-- EPOCH, FREEZE and SLATE_STORE (spec 21 R363, R369, R372, R373): where NSTIME[39] has changed, every ring that records has an EPOCH
record; the broadcast freezes a ring that still records, once, with its last record; when every ring is frozen the Slate is stored, or
counted as lost, and the rings thaw, each with an EPOCH record. -/
def Freezes : Prop :=
  (∀ s : State, (s.epochBit = s.nstime.getLsbD 39 → exec .epoch s = .next s)
    ∧ (s.epochBit ≠ s.nstime.getLsbD 39 → ∃ t, exec .epoch s = .next t ∧ t.epochBit = s.nstime.getLsbD 39
        ∧ RecordedInAll s t (epochEvent s.nstime) ∧ ({ t with rings := s.rings, epochBit := s.epochBit } : State) = s))
  ∧ (∀ (s : State) (n : Nat) (r : Ring), s.input = .index n → s.rings[n]? = some r →
    (s.assembling = false ∨ r.frozen = true → exec .freeze s = .next s)
    ∧ (s.assembling = true → r.frozen = false → s.origin < 148 → ∃ (t : State) (q : Ring), exec .freeze s = .next t ∧ t.rings[n]? = some q
        ∧ q.frozen = true ∧ q.recs.getLast? = some (event s.nstime 0x31 (s.origin * 2 ^ 57)) ∧ ∀ j, j ≠ n → t.rings[j]? = s.rings[j]?))
  ∧ ∀ s : State,
    (s.assembling = false ∨ (∃ r ∈ s.rings, r.frozen = false) → exec .slateStore s = .next s)
    ∧ (s.assembling = true → (∀ r ∈ s.rings, r.frozen = true) → s.coldPending = none → s.slates.length = 8 →
        ∃ t, exec .slateStore s = .next t ∧ t.assembling = false ∧ (∀ r ∈ t.rings, r.frozen = false)
          ∧ (∀ n < 148, (s.rings[n]?).isSome → Recorded t n (epochEvent s.nstime))
          ∧ ((∃ i < 8, s.slates[i]? = some none) → ∃ i < 8, s.slates[i]? = some none ∧ t.slates = s.slates.set i (some s.assemble)
              ∧ t.slateSeq = s.slateSeq + 1)
          ∧ ((∀ i < 8, ∃ x, s.slates[i]? = some (some x) ∧ x.acked = false) → t.slates = s.slates ∧ t.slateSeq = s.slateSeq
              ∧ t.slateLost = if s.slateLost = 0xFFFFFFFF then s.slateLost else s.slateLost + 1))

/-- Copies of records and samples to memory (spec 21 R368, R383): the oldest that is staged leaves, and is written in the memory ring with
the tail index advancing, or dropped where that ring is full; while the budget of class 4 holds it (18 R326) it waits. -/
def CopiesOut : Prop :=
  let up (c : W32) : W32 := if c = 0xFFFFFFFF then c else c + 1
  (∀ (s : State) (n : Nat) (r : Ring), s.input = .index n → s.rings[n]? = some r →
    let pa := r.mir.pa.toNat + 16 * (r.mir.tail.toNat % 2 ^ (r.mir.size.toNat + 8))
    let full : Prop := (r.mir.tail - r.mir.head).toNat = 2 ^ (r.mir.size.toNat + 8)
    (r.mir.staging = [] → exec .reelMirrorWrite s = .next s)
    ∧ ∀ (x : BitVec 128) (xs : List (BitVec 128)), r.mir.staging = x :: xs →
      (¬ full → s.held 4 [(pa, 16)] = true → exec .reelMirrorWrite s = .next s)
      ∧ (full ∨ s.held 4 [(pa, 16)] = false → ∃ (t : State) (q : Ring), exec .reelMirrorWrite s = .next t ∧ t.rings[n]? = some q
        ∧ q.recs = r.recs ∧ q.mir.staging = xs
        ∧ (full → q.mir.tail = r.mir.tail ∧ q.mir.drop = up r.mir.drop ∧ t.mem = s.mem)
        ∧ (¬ full → q.mir.tail = r.mir.tail + 1 ∧ q.mir.drop = r.mir.drop ∧ t.mem = (s.writePhys pa (leBytes 16 x.toNat)).mem)))
  ∧ ∀ (s : State) (n : Nat) (c : Core), s.input = .index n → s.cores[n]? = some c →
    let size := c.smp.base.toNat % 16
    let pa := c.smp.base.toNat % 2 ^ 52 / 2 ^ 12 * 2 ^ 12 + 32 * (c.smp.tail.toNat % 2 ^ (size + 8))
    let full : Prop := (c.smp.tail - c.smp.head).toNat = 2 ^ (size + 8)
    (c.smp.staging = [] → exec .sampleWrite s = .next s)
    ∧ ∀ (x : BitVec 256) (xs : List (BitVec 256)), c.smp.staging = x :: xs →
      (¬ full → s.held 4 [(pa, 32)] = true → exec .sampleWrite s = .next s)
      ∧ (full ∨ s.held 4 [(pa, 32)] = false → ∃ (t : State) (y : Core), exec .sampleWrite s = .next t ∧ t.cores[n]? = some y
        ∧ y.smp.staging = xs
        ∧ (full → y.smp.tail = c.smp.tail ∧ y.smp.drop = up c.smp.drop ∧ t.mem = s.mem)
        ∧ (¬ full → y.smp.tail = c.smp.tail + 1 ∧ y.smp.drop = c.smp.drop ∧ t.mem = (s.writePhys pa (leBytes 32 x.toNat)).mem))

/-- The slot that a quadrant's sampler takes (spec 21 R380): the first occupied one after the slot sampled last, wrapping past 255; none
where no group passes the filter. -/
def NextSlots : Prop :=
  ∀ (last : Nat) (gs : List (Nat × Group)),
    let far (x : Nat × Group) : Nat := (x.2.slot + 255 - last) % 256
    (nextSlot last gs = none ↔ gs = []) ∧ ∀ x, nextSlot last gs = some x → x ∈ gs ∧ ∀ y ∈ gs, far x ≤ far y

/-- A sample record's fields (spec 21 R381): time, PC, grid, team, group, core, quadrant, slot, state with its reason, flags. The reason
of a group whose next instruction is not fetched yet, and whose fetch waits, is the lowest that applies, FETCH (R382). -/
def SampleFields : Prop :=
  ∀ (s : State) (c core quad gi : Nat) (g : Group), g.idx < 2 ^ 16 → core < 256 → quad < 256 → g.slot < 256 →
    let st := s.sampleState c (gi, g)
    let pc := ((s.issueOf gi g).map Issued.pc).getD g.pc
    (s.sampleOf c core quad (gi, g)).toNat = s.nstime.toNat + pc.toNat % 2 ^ 57 * 2 ^ 64 + g.grid.toNat * 2 ^ 128 + g.team.toNat * 2 ^ 160
      + g.idx * 2 ^ 192 + core * 2 ^ 208 + quad * 2 ^ 216 + g.slot * 2 ^ 224 + st.1.toNat * 2 ^ 232 + st.2.toNat * 2 ^ 240
      + (g.trap.toNat + 2 * g.chain.isSome.toNat) * 2 ^ 248
    ∧ ((s.issueOf gi g).isSome → st = (0, 0))
    ∧ (s.issueOf gi g = none → g.gone = false → s.reasonOf gi g = 0 → st = (1, 0))
    ∧ (s.issueOf gi g = none → g.gone = false → s.reasonOf gi g ≠ 0 → st = (2, BitVec.ofNat 8 (s.reasonOf gi g)))
    ∧ (g.upcoming = none → ((∃ b, g.wait = .held b) ∨ ∃ r b, g.wait = .again r s.cycle b) → s.reasonOf gi g = 1)

/-- SAMPLE_INSTANT (spec 21 R380, R383, R385): an enabled sampler whose instant has come takes, once the core's attempts to issue have been
made, one sample of each quadrant that has a group passing the filter, in quadrant order; its next instant is a period later. Where the
memory ring is full the samples are dropped and counted. -/
def Samples : Prop :=
  ∀ (s : State) (n : Nat) (c : Core), s.input = .index n → s.cores[n]? = some c →
    let due : Prop := c.smp.en = true ∧ c.smp.next ≤ s.cycle ∧ ∀ g ∈ s.groups, g.core = n → s.pick n g.quad = none
    let taken (q : Nat) : Option (Nat × Group) := nextSlot ((c.smp.last[q]?).getD 255) (s.sampled n q c.smp)
    let recs := (List.range 4).filterMap fun q => (taken q).map fun x => s.draw.2.sampleOf s.draw.1 n q x
    let full : Prop := (c.smp.tail - c.smp.head).toNat = 2 ^ (c.smp.base.toNat % 16 + 8)
    (¬ due → exec .sampleInstant s = .next s)
    ∧ (due → ∃ (t : State) (y : Core), exec .sampleInstant s = .next t ∧ t.cores[n]? = some y
        ∧ y.smp.next = c.smp.next + c.smp.period.toNat ∧ y.smp.done = s.cycle + 1
        ∧ (¬ full → c.smp.staging.length ≤ 60 → y.smp.staging = c.smp.staging ++ recs ∧ y.smp.drop = c.smp.drop)
        ∧ (full ∨ 64 ≤ c.smp.staging.length → y.smp.staging = c.smp.staging
            ∧ y.smp.drop.toNat = min (2 ^ 32 - 1) (c.smp.drop.toNat + recs.length))
        ∧ (c.smp.last.length = 4 → ∀ q < 4, y.smp.last[q]? = match taken q with
            | some x => some x.2.slot
            | none => c.smp.last[q]?)
        ∧ (∀ j, j ≠ n → t.cores[j]? = s.cores[j]?) ∧ t.mem = s.mem ∧ t.groups = s.groups)

/-- The device clock (spec 21 R378, R379): TIMESTAT takes what the exchange found; a device that is master or runs free is not corrected;
a correction of at most 1 µs forward, or backward, is slewed in; a greater one is a step of NSTIME, which never goes back, and every
ring that records has a STEP record. -/
def ClockCorrected : Prop :=
  ∀ (s : State) (r : PtpResult), s.input = .ptp r → ∃ t, exec .ptpEventMessage s = .next t
    ∧ t.timePort = r.port ∧ t.timeState = r.state ∧ t.timeOffset = BitVec.ofInt 32 r.offset
    ∧ (r.state = 0 ∨ r.state = 3 → t.nstime = s.nstime ∧ t.slew = s.slew)
    ∧ (r.state ≠ 0 → r.state ≠ 3 → -r.offset ≤ 1000 → t.nstime = s.nstime ∧ t.slew = -r.offset)
    ∧ (r.state ≠ 0 → r.state ≠ 3 → 1000 < -r.offset → t.nstime = s.nstime + BitVec.ofInt 64 (-r.offset) ∧ t.slew = 0
        ∧ RecordedInAll s t (event s.nstime 0x39 ((-r.offset).toNat % 2 ^ 32)))

/-- The clock (spec 21 R378; log 6 fixes 4 ns to 9 cycles): cycles and nanoseconds go on together; a correction that is slewed in, either
way, adds or takes one nanosecond in 5 µs until it is made, and never lets NSTIME go back. -/
def ClockRuns : Prop :=
  ∀ (s : State) (n : Nat), s.nsRem < 9 → s.slewNs < 5000 → s.nstime.toNat + 4 * n + 8 + n < 2 ^ 64 →
    let t := s.tick n
    let d := (4 * n + s.nsRem) / 9
    let k := (s.slewNs + d) / 5000
    t.cycle = s.cycle + n ∧ t.nsRem = (4 * n + s.nsRem) % 9 ∧ t.slewNs = (s.slewNs + d) % 5000 ∧ t.slew + (t.nstime.toNat - s.nstime.toNat : Int) = s.slew + d
    ∧ (s.slew = 0 → t.nstime.toNat = s.nstime.toNat + d) ∧ s.nstime.toNat ≤ t.nstime.toNat
    ∧ (0 ≤ s.slew → (t.nstime.toNat : Int) = s.nstime.toNat + d + min s.slew k)
    ∧ (s.slew < 0 → (t.nstime.toNat : Int) = s.nstime.toNat + d - min (-s.slew) k)

/-- An event counted (spec 19 R343): each enabled counter that selects it has that many increments more to take when the cycle ends
(log 84); nothing else changes, so that an instruction of the cycle reads its counter as it was before (R344). -/
def EventsCounted : Prop :=
  ∀ (s : State) (gi event n : Nat) (g : Group), s.groups[gi]? = some g → g.pmsel.length = 8 → event ≠ 0 →
    let t := s.countEv gi event n
    ({ t with groups := s.groups } : State) = s ∧ (∀ j, j ≠ gi → t.groups[j]? = s.groups[j]?)
    ∧ ∃ h, t.groups[gi]? = some h ∧ ({ h with pend := g.pend } : Group) = g
      ∧ ∀ k < 8, h.pending k = g.pending k + if g.pmctl.getLsbD k = true ∧ (g.pmsel[k]?).map BitVec.toNat = some event then n else 0

/-- The increments of a cycle taken by a group's counters (spec 19 R343, R344): each is added modulo 2^48 and sets the counter's overflow
flag where it passes 2^48 - 1, with one PMCOVF record; a counter that an instruction has written in the cycle keeps what was written, and
overflows as its count before the write would have. -/
def CountsTaken : Prop :=
  ∀ (s : State) (gi : Nat) (g : Group), s.groups[gi]? = some g → g.pmc.length = 8 → (∀ p ∈ g.pend, p.1 < 8) →
    let wrote (k : Nat) : Option (BitVec 48) :=
      ((s.issueOf gi g).bind fun i => if i.at_ = s.cycle then i.pmc else none).bind fun w => if w.1 = k then some w.2 else none
    let sum (k : Nat) : Nat := ((wrote k).getD ((g.pmc[k]?).getD 0)).toNat + g.pending k
    let t := s.commit gi
    (∃ h, t.groups[gi]? = some h ∧ h.pend = [] ∧ h.early = []
      ∧ ({ h with pmc := g.pmc, pmovf := g.pmovf, pend := g.pend, early := g.early } : Group) = g
      ∧ ∀ k < 8, h.pmc[k]? = (if (wrote k).isSome then g.pmc[k]? else some (BitVec.ofNat 48 (sum k)))
        ∧ (h.pmovf.getLsbD k = true ↔ g.pmovf.getLsbD k = true ∨ 2 ^ 48 ≤ sum k))
    ∧ ((∀ k < 8, sum k < 2 ^ 48) → t.rings = s.rings)
    ∧ ∀ k < 8, 2 ^ 48 ≤ sum k → (∀ j < 8, j ≠ k → sum j < 2 ^ 48) → ∃ event, (∃ n, (k, event, n) ∈ g.pend)
        ∧ t.rings = (s.reel g.core 0x28 (some g.ctx) (g.gslot + k * 2 ^ 52 + event * 2 ^ 47)).rings

/-- CYCLE_COUNT_OVERFLOW (spec 19 R343, R344): a counter of cycles that the present one takes past its last value is counted for it at once,
and not again at the cycle's end: it is 0, or keeps what an instruction has written in the cycle, and its overflow flag is set. -/
def CounterOverflows : Prop :=
  EventsCounted ∧ CountsTaken
  ∧ ∀ (s : State) (gi k : Nat) (g : Group), s.input = .index2 gi k → s.groups[gi]? = some g → g.live = true → k < 8 →
    g.pmc.length = 8 → s.pick g.core g.quad = none → g.early.contains k = false → g.pmctl.getLsbD k = true →
    ∀ event, event ≠ 0 → (g.pmsel[k]?).map BitVec.toNat = some event → s.spends gi g event = true →
    let wrote := ((s.issueOf gi g).bind fun i => if i.at_ = s.cycle then i.pmc else none).bind fun w => if w.1 = k then some w.2 else none
    let sum := ((wrote).getD ((g.pmc[k]?).getD 0)).toNat + g.pending k
    (sum ≠ 2 ^ 48 - 1 → exec .cycleCountOverflow s = .next s)
    ∧ (sum = 2 ^ 48 - 1 → ∃ (t : State) (h : Group), exec .cycleCountOverflow s = .next t ∧ t.groups[gi]? = some h
      ∧ h.pmc = (if wrote.isSome then g.pmc else g.pmc.set k 0) ∧ h.pmovf = g.pmovf ||| BitVec.ofNat 8 (2 ^ k)
      ∧ h.early = k :: g.early ∧ h.pend = g.pend.filter (fun p => p.1 != k)
      ∧ ({ h with pmc := g.pmc, pmovf := g.pmovf, pend := g.pend, early := g.early } : Group) = g)

end Sys2Proof.Claims

/-- The Reel, the Slates, the sampler, the clock and counters that overflow. -/
def Obligations.RecordsAndClock : Prop :=
  Claims.Freezes ∧ Claims.CopiesOut ∧ Claims.NextSlots ∧ Claims.SampleFields ∧ Claims.Samples ∧ Claims.ClockCorrected ∧ Claims.ClockRuns ∧ Claims.CounterOverflows

/-- What reset leaves: registers, with the values that the specification gives but for three of the model's (logs 7, 8), and memory that
lists nothing. -/
def Obligations.ResetState : Prop := Claims.ResetRegisters ∧ Claims.ResetMemory

/-- A step runs the decoded instruction of the group that issues, and makes the moves of the other agents. -/
def Obligations.StepRunsDecoded : Prop := Claims.StepIssuesDecoded ∧ Claims.StepMakesMove

/-- Where a form, or a loop nest, does not have its own effect at its issue: what it waits for, what it traps on, where it has none. -/
def Obligations.WaitsOrTraps : Prop := Claims.FormWaitsOrTraps ∧ Claims.NestWaitsOrTraps

/-- Words that no form takes trap ILLEGAL: those of a reserved OPC, and those that the decoder refuses. -/
def Obligations.RefusedEncodings : Prop := Claims.ReservedOpcTraps ∧ Claims.RefusedWordTraps

/-- A trap is taken: what it saves, where the group goes; without a handler, or nested, the context is fatal. INCHAIN of a chain's first
member is log 22, the PC of an SVC that waits for service log 45. -/
def Obligations.TakesTraps : Prop := Claims.TrapEntry ∧ Claims.TrapWithoutHandler

/-- A form that completes goes on after its words; and what its write of exec leaves. -/
def Obligations.CompletedForms : Prop := Claims.CompletedAdvances ∧ Claims.ExecWrites

/-- The scalar forms: arithmetic, comparison, selection. -/
def Obligations.ScalarForms : Prop := Claims.ScalarArithmetic ∧ Claims.ScalarCompareSelect

/-- Masks of lanes, and their moves to and from predicates. -/
def Obligations.MaskForms : Prop := Claims.LaneMasks ∧ Claims.PredicatesAndMasks

/-- The vector arithmetic, and its carry chain. -/
def Obligations.VectorForms : Prop := Claims.VectorArithmetic ∧ Claims.CarryChain

/-- Moves and selections of vectors, and between lanes. -/
def Obligations.VectorMoves : Prop := Claims.VectorMove ∧ Claims.VectorSelect ∧ Claims.LaneMoves

/-- The floating-point forms: arithmetic and conversions. -/
def Obligations.FloatForms : Prop := Claims.FloatArithmetic ∧ Claims.FloatConversions

/-- Reductions and scans, and the value of the tree that they sum in. -/
def Obligations.Reductions : Prop := Claims.ReductionsAndScans ∧ Claims.TreeIsFold

/-- The forms of big numbers in registers and limb arrays in memory. -/
def Obligations.BigNumberForms : Prop := Claims.BigNumbers ∧ Claims.BigCompare ∧ Claims.BigDivision ∧ Claims.BigMemory

/-- EXIT, divergence and reconvergence of lanes. -/
def Obligations.Divergence : Prop := Claims.Exit ∧ Claims.Diverge ∧ Claims.Join

/-- Branches, calls and returns, and the return of an inline call. That a backward branch is a yield point at trap level too is log 87, that
CALLI reads its target before it writes its link log 91. -/
def Obligations.BranchesAndCalls : Prop := Claims.Branches ∧ Claims.InlineReturn

/-- Sleep and priority, identities, the program counters of lanes. That a PRIO above 3 traps whatever its guard is log 38. -/
def Obligations.GroupForms : Prop := Claims.SleepAndPriority ∧ Claims.Identities ∧ Claims.LanePCs

/-- The CSR forms, and what each CSR's fields keep of a write. -/
def Obligations.Csrs : Prop := Claims.CsrWrites ∧ Claims.CsrFields

/-- Traps raised, the return from one, marks and time stamps. Which return counts a REPLAY is log 23. -/
def Obligations.SystemForms : Prop := Claims.TrapForms ∧ Claims.MarksAndTimes

/-- Power tokens: who wants one (log 28), how they are granted, and when they are released. -/
def Obligations.PowerTokens : Prop := Claims.TokenWanted ∧ Claims.TokenGrants ∧ Claims.BurstsEnd

/-- The matrix forms at issue, and the start of their operations. That MXMAC, MXPAIR and schoolbook BMUL alone refresh the 64 cycles after
which a burst ends, and MXRD, MXWR and MXZ do not, is log 66, and that MXRD, MXWR and MXZ wait while the queue holds 8 operations is log
46: both are the model's choice. -/
def Obligations.MatrixEngine : Prop := Claims.MatrixForms ∧ Claims.MatrixStarts

/-- The Cue forms, and the write-out of a closing heap. The ring in which a write's fault is recorded is log 14; what a refused pop leaves
is log 44; that CUNRUN counts the entries written before a fault log 88. -/
def Obligations.CueHeap : Prop := Claims.CueForms ∧ Claims.CueWritesOut

/-- The ends of outstanding operations, and engine faults. That an operation whose requests a budget holds has what the budget allows
charged and changes nothing else yet is log 42, and that an engine's accesses come in one step at its completion is log 10: both are the
model's choice. -/
def Obligations.OperationsEnd : Prop := Claims.OperationsComplete ∧ Claims.EngineFaults ∧ Claims.HeldIsCharged

/-- What forms leave unchanged of registers: those that complete at issue, those that queue an operation, branches, EXIT, waiting forms and
the Cue forms. -/
def Obligations.RegisterFrames : Prop := Claims.RegisterFrame ∧ Claims.BigFrame ∧ Claims.ControlFrame ∧ Claims.BranchFrame ∧ Claims.ExitFrame ∧ Claims.QueuedFrame
  ∧ Claims.WaitingFrame ∧ Claims.CueFrame

/-- What forms leave unchanged of memory: all of it, or all but the bytes that they store. -/
def Obligations.MemoryFrames : Prop := Claims.MemoryFrame ∧ Claims.StoreFrame ∧ Claims.PerformFrame ∧ Claims.EffectFrame

/-- What engines write, by value: copies, transforms, products of big numbers, the heap, XCRT, KSWITCH, CRES, products of matrices, loop
nests, XGATH, XCHAIN and the Stock. The model's choices: how KSWITCH reads rows (log 29), and that one with LOGN, LEVEL or KLEV out of
R271's ranges is carried out (logs 67, 48); the free line that a lookup takes (log 3); which records of XCHAIN are invalid (log 25); that
the arrays of XGATH, the address NEXT, and TABLE and DEST of XCRT are used as they stand, aligned or not (log 65); that held operations charge what the budget
allows (log 42), and that what an engine does comes in one step (log 10). -/
def Obligations.EngineValues : Prop :=
  CopyMoves ∧ TransformWrites
  ∧ BmulWrites .bmulSchoolbookCompletion (fun _ _ _ o => o.isMx = true ∧ o.phase = .started) (fun _ _ _ t => t)
  ∧ BmulWrites .nttUnitOperationCompletion (fun s gi g o => o.phase = .queued ∧ atHead s gi g o) leavesUnit
  ∧ HallocTakes ∧ CrtWrites ∧ KeySwitches ∧ CarriesResolve ∧ (ExactValues ∧ MatrixProducts) ∧ NestRuns ∧ Gathers ∧ Chains ∧ StockCounts
end

