-- ==== Sys2Proof/Laws/Memory.lean ====
section
/-! SUPPORT. Byte memories: every operation keeps the canonical form, and a read finds what was written. -/

namespace Sys2Proof.Machine

/-- The canonical form of a longer list: its head is no blank, it stands below all the rest, and the rest has the form. -/
theorem Memory.wf_cons {c : Host.Cell} {m : Memory} :
    Memory.wf (c :: m) = true ↔ c.2 ≠ Memory.blank ∧ (∀ d ∈ m, c.1 < d.1) ∧ Memory.wf m = true := by
  induction m generalizing c with
  | nil => simp [Memory.wf]
  | cons d m ih =>
    simp only [Memory.wf, Bool.and_eq_true, bne_iff_ne, ne_eq, decide_eq_true_eq, ih, List.mem_cons, forall_eq_or_imp]
    constructor
    · rintro ⟨⟨h1, h2⟩, h3, h4, h5⟩
      exact ⟨h1, ⟨h2, fun x hx => Nat.lt_trans h2 (h4 x hx)⟩, h3, h4, h5⟩
    · rintro ⟨h1, ⟨h2, _⟩, h3, h4, h5⟩
      exact ⟨⟨h1, h2⟩, h3, h4, h5⟩

/-- A cell of a memory with one byte written is that byte's or an old one. -/
theorem Memory.mem_set {m : Memory} {a : Nat} {b : Byte} {d : Host.Cell} (h : d ∈ Memory.set m a b) : d = (a, b) ∨ d ∈ m := by
  induction m with
  | nil =>
    simp only [Memory.set] at h
    split at h <;> simp_all
  | cons c m ih =>
    simp only [Memory.set] at h
    split at h
    · split at h <;> simp_all
    · split at h
      · split at h
        · exact Or.inr (List.mem_cons_of_mem _ h)
        · rcases List.mem_cons.1 h with h | h
          · exact Or.inl h
          · exact Or.inr (List.mem_cons_of_mem _ h)
      · rcases List.mem_cons.1 h with h | h
        · exact Or.inr (by simp [h])
        · exact (ih h).imp_right (List.mem_cons_of_mem _)

/-- Writing a byte keeps the canonical form. -/
theorem Memory.wf_set {m : Memory} (h : m.wf = true) (a : Nat) (b : Byte) : Memory.wf (Memory.set m a b) = true := by
  induction m with
  | nil =>
    simp only [Memory.set]
    split
    · rfl
    · simpa [Memory.wf]
  | cons c m ih =>
    have hc := Memory.wf_cons.1 h
    simp only [Memory.set]
    split
    · next hlt =>
      split
      · exact h
      · next hb =>
        refine Memory.wf_cons.2 ⟨hb, fun d hd => ?_, h⟩
        rcases List.mem_cons.1 hd with rfl | hd
        · exact hlt
        · exact Nat.lt_trans hlt (hc.2.1 d hd)
    · next hge =>
      split
      · next heq =>
        split
        · exact hc.2.2
        · next hb => exact Memory.wf_cons.2 ⟨hb, fun d hd => heq ▸ hc.2.1 d hd, hc.2.2⟩
      · next hne =>
        refine Memory.wf_cons.2 ⟨hc.1, fun d hd => ?_, ih hc.2.2⟩
        rcases Memory.mem_set hd with rfl | hd
        · change c.1 < a
          omega
        · exact hc.2.1 d hd

/-- Writing bytes keeps the canonical form. -/
theorem Memory.wf_write {m : Memory} (h : m.wf = true) (a : Nat) (bs : List Byte) : Memory.wf (Memory.write m a bs) = true := by
  induction bs generalizing m a with
  | nil => exact h
  | cons b bs ih => exact ih (Memory.wf_set h a b) (a + 1)

/-- Dropping cells keeps the canonical form. -/
theorem Memory.wf_filter {m : Memory} (h : m.wf = true) (p : Host.Cell → Bool) : Memory.wf (List.filter p m) = true := by
  induction m with
  | nil => rfl
  | cons c m ih =>
    have hc := Memory.wf_cons.1 h
    rw [List.filter_cons]
    split
    · exact Memory.wf_cons.2 ⟨hc.1, fun d hd => hc.2.1 d (List.mem_filter.1 hd).1, ih hc.2.2⟩
    · exact ih hc.2.2

/-- Below every listed address a memory reads blank. -/
theorem Memory.get_below {m : Memory} {a : Nat} (h : ∀ d ∈ m, a < d.1) : Memory.get m a = Memory.blank := by
  cases m with
  | nil => rfl
  | cons c m =>
    have h1 : a < c.1 := h c (List.mem_cons_self ..)
    simp [Memory.get, h1, Nat.ne_of_lt h1]

/-- A byte reads as it was written. -/
theorem Memory.get_set_same {m : Memory} (h : m.wf = true) (a : Nat) (b : Byte) : Memory.get (Memory.set m a b) a = b := by
  induction m with
  | nil =>
    simp only [Memory.set]
    split <;> simp_all [Memory.get]
  | cons c m ih =>
    have hc := Memory.wf_cons.1 h
    simp only [Memory.set]
    split
    · next hlt =>
      split
      · next hb => simp [Memory.get, hlt, Nat.ne_of_lt hlt, hb]
      · simp [Memory.get]
    · next hge =>
      split
      · next heq =>
        split
        · next hb => rw [hb]; exact Memory.get_below fun d hd => heq ▸ hc.2.1 d hd
        · simp [Memory.get]
      · next hne => simp [Memory.get, hne, hge, ih hc.2.2]

/-- A write of one byte leaves every other byte. -/
theorem Memory.get_set_other {m : Memory} (h : m.wf = true) {a x : Nat} (b : Byte) (hx : x ≠ a) :
    Memory.get (Memory.set m a b) x = Memory.get m x := by
  induction m with
  | nil =>
    simp only [Memory.set]
    split <;> simp_all [Memory.get]
  | cons c m ih =>
    have hc := Memory.wf_cons.1 h
    simp only [Memory.set]
    split
    · next hlt =>
      split
      · rfl
      · by_cases h1 : x < a
        · have h2 : x < c.1 := Nat.lt_trans h1 hlt
          simp [Memory.get, hx, h1, h2, Nat.ne_of_lt h2]
        · simp [Memory.get, hx, h1]
    · next hge =>
      split
      · next heq =>
        have h3 : x ≠ c.1 := heq ▸ hx
        split
        · by_cases h1 : x < c.1
          · have := Memory.get_below (m := m) (a := x) fun d hd => Nat.lt_trans h1 (hc.2.1 d hd)
            simp [Memory.get, h1, h3, this]
          · simp [Memory.get, h1, h3]
        · simp [Memory.get, heq, h3]
      · simp [Memory.get, ih hc.2.2]

/-- A write leaves every byte outside its range. -/
theorem Memory.get_write_other {m : Memory} (h : m.wf = true) (a : Nat) (bs : List Byte) {x : Nat}
    (hx : x < a ∨ a + bs.length ≤ x) : Memory.get (Memory.write m a bs) x = Memory.get m x := by
  induction bs generalizing m a with
  | nil => rfl
  | cons b bs ih =>
    simp only [List.length_cons] at hx
    rw [Memory.write, ih (Memory.wf_set h a b) (a + 1) (by omega), Memory.get_set_other h b (by omega)]

/-- Every byte of a write's range reads as it was written. -/
theorem Memory.get_write_same {m : Memory} (h : m.wf = true) (a : Nat) (bs : List Byte) {i : Nat} (hi : i < bs.length) :
    Memory.get (Memory.write m a bs) (a + i) = bs[i] := by
  induction bs generalizing m a i with
  | nil => exact absurd hi (Nat.not_lt_zero i)
  | cons b bs ih =>
    rw [Memory.write]
    cases i with
    | zero =>
      rw [Memory.get_write_other (Memory.wf_set h a b) (a + 1) bs (by omega)]
      simpa using Memory.get_set_same h a b
    | succ i =>
      have := ih (Memory.wf_set h a b) (a + 1) (i := i) (by simpa using hi)
      simpa [Nat.add_assoc, Nat.add_comm 1 i] using this

/-- The bytes of a range, one by one. -/
theorem Memory.read_eq (m : Memory) (a n : Nat) : Memory.read m a n = (List.range n).map fun i => Memory.get m (a + i) := by
  induction n generalizing a with
  | zero => rfl
  | succ n ih =>
    rw [Memory.read, ih, List.range_succ_eq_map]
    simp [Nat.add_assoc, Nat.add_comm 1]

/-- A range read back after it was written. -/
theorem Memory.read_write {m : Memory} (h : m.wf = true) (a : Nat) (bs : List Byte) :
    Memory.read (Memory.write m a bs) a bs.length = bs := by
  rw [Memory.read_eq]
  apply List.ext_getElem (by simp)
  intro i h1 h2
  simpa using Memory.get_write_same h a bs h2

/-- Clearing a tile keeps the accumulator's canonical form. -/
theorem Group.wf_zeroTile {g : Group} (h : g.acc.wf = true) (t : Nat) (wide : Bool) : (g.zeroTile t wide).acc.wf = true :=
  Memory.wf_filter h _

/-- A write of device memory keeps its canonical form. -/
theorem State.wf_writeDev {s : State} (h : s.mem.wf = true) (pa : Nat) (bs : List Byte) (key : Option (Fin 64)) :
    (s.writeDev pa bs key).mem.wf = true := by
  change (s.writeLine pa bs key).mem.wf = true
  unfold State.writeLine
  dsimp only
  split
  · exact Memory.wf_write h _ _
  · exact Memory.wf_write (Memory.wf_write h _ _) _ _

end Sys2Proof.Machine
end

