-- ==== Sys2Proof/Laws/State.lean ====
section
/-! SUPPORT. What each named update of the state and of a group leaves, field by field. -/

namespace Sys2Proof.Machine

@[simp] theorem State.setGroup_groups (s : State) (gi : Nat) (g : Group) : (s.setGroup gi g).groups = s.groups.set gi g := rfl
@[simp] theorem State.setGroup_cur (s : State) (gi : Nat) (g : Group) : (s.setGroup gi g).cur = s.cur := rfl
@[simp] theorem State.setGroup_agenda (s : State) (gi : Nat) (g : Group) : (s.setGroup gi g).agenda = s.agenda := rfl
@[simp] theorem State.setGroup_input (s : State) (gi : Nat) (g : Group) : (s.setGroup gi g).input = s.input := rfl
@[simp] theorem State.setGroup_freeCount (s : State) (gi : Nat) (g : Group) : (s.setGroup gi g).freeCount = s.freeCount := rfl
@[simp] theorem State.setGroup_teams (s : State) (gi : Nat) (g : Group) : (s.setGroup gi g).teams = s.teams := rfl
@[simp] theorem State.setGroup_grids (s : State) (gi : Nat) (g : Group) : (s.setGroup gi g).grids = s.grids := rfl
@[simp] theorem State.setGroup_nextGrid (s : State) (gi : Nat) (g : Group) : (s.setGroup gi g).nextGrid = s.nextGrid := rfl
@[simp] theorem State.setGroup_waiting (s : State) (gi : Nat) (g : Group) : (s.setGroup gi g).waiting = s.waiting := rfl
@[simp] theorem State.setGroup_mem (s : State) (gi : Nat) (g : Group) : (s.setGroup gi g).mem = s.mem := rfl
@[simp] theorem State.setGroup_hostMem (s : State) (gi : Nat) (g : Group) : (s.setGroup gi g).hostMem = s.hostMem := rfl
@[simp] theorem State.setGroup_poison (s : State) (gi : Nat) (g : Group) : (s.setGroup gi g).poison = s.poison := rfl
@[simp] theorem State.setGroup_cache (s : State) (gi : Nat) (g : Group) : (s.setGroup gi g).cache = s.cache := rfl
@[simp] theorem State.setGroup_keyTags (s : State) (gi : Nat) (g : Group) : (s.setGroup gi g).keyTags = s.keyTags := rfl
@[simp] theorem State.setGroup_keys (s : State) (gi : Nat) (g : Group) : (s.setGroup gi g).keys = s.keys := rfl
@[simp] theorem State.setGroup_ctxs (s : State) (gi : Nat) (g : Group) : (s.setGroup gi g).ctxs = s.ctxs := rfl
@[simp] theorem State.setGroup_cue (s : State) (gi : Nat) (g : Group) : (s.setGroup gi g).cue = s.cue := rfl
@[simp] theorem State.setGroup_cores (s : State) (gi : Nat) (g : Group) : (s.setGroup gi g).cores = s.cores := rfl
@[simp] theorem State.setGroup_dies (s : State) (gi : Nat) (g : Group) : (s.setGroup gi g).dies = s.dies := rfl
@[simp] theorem State.setGroup_rings (s : State) (gi : Nat) (g : Group) : (s.setGroup gi g).rings = s.rings := rfl
@[simp] theorem State.setGroup_slates (s : State) (gi : Nat) (g : Group) : (s.setGroup gi g).slates = s.slates := rfl
@[simp] theorem State.setGroup_slateSeq (s : State) (gi : Nat) (g : Group) : (s.setGroup gi g).slateSeq = s.slateSeq := rfl
@[simp] theorem State.setGroup_slateLost (s : State) (gi : Nat) (g : Group) : (s.setGroup gi g).slateLost = s.slateLost := rfl
@[simp] theorem State.setGroup_tf (s : State) (gi : Nat) (g : Group) : (s.setGroup gi g).tf = s.tf := rfl
@[simp] theorem State.setGroup_origin (s : State) (gi : Nat) (g : Group) : (s.setGroup gi g).origin = s.origin := rfl
@[simp] theorem State.setGroup_assembling (s : State) (gi : Nat) (g : Group) : (s.setGroup gi g).assembling = s.assembling := rfl
@[simp] theorem State.setGroup_coldPending (s : State) (gi : Nat) (g : Group) : (s.setGroup gi g).coldPending = s.coldPending := rfl
@[simp] theorem State.setGroup_reelen0 (s : State) (gi : Nat) (g : Group) : (s.setGroup gi g).reelen0 = s.reelen0 := rfl
@[simp] theorem State.setGroup_reelen1 (s : State) (gi : Nat) (g : Group) : (s.setGroup gi g).reelen1 = s.reelen1 := rfl
@[simp] theorem State.setGroup_cycle (s : State) (gi : Nat) (g : Group) : (s.setGroup gi g).cycle = s.cycle := rfl
@[simp] theorem State.setGroup_nstime (s : State) (gi : Nat) (g : Group) : (s.setGroup gi g).nstime = s.nstime := rfl
@[simp] theorem State.setGroup_nsRem (s : State) (gi : Nat) (g : Group) : (s.setGroup gi g).nsRem = s.nsRem := rfl
@[simp] theorem State.setGroup_epochBit (s : State) (gi : Nat) (g : Group) : (s.setGroup gi g).epochBit = s.epochBit := rfl
@[simp] theorem State.setGroup_timeOffset (s : State) (gi : Nat) (g : Group) : (s.setGroup gi g).timeOffset = s.timeOffset := rfl
@[simp] theorem State.setGroup_timePort (s : State) (gi : Nat) (g : Group) : (s.setGroup gi g).timePort = s.timePort := rfl
@[simp] theorem State.setGroup_timeState (s : State) (gi : Nat) (g : Group) : (s.setGroup gi g).timeState = s.timeState := rfl
@[simp] theorem State.setGroup_slew (s : State) (gi : Nat) (g : Group) : (s.setGroup gi g).slew = s.slew := rfl
@[simp] theorem State.setGroup_slewNs (s : State) (gi : Nat) (g : Group) : (s.setGroup gi g).slewNs = s.slewNs := rfl
@[simp] theorem State.setGroup_lqbase (s : State) (gi : Nat) (g : Group) : (s.setGroup gi g).lqbase = s.lqbase := rfl
@[simp] theorem State.setGroup_lqPtr (s : State) (gi : Nat) (g : Group) : (s.setGroup gi g).lqPtr = s.lqPtr := rfl
@[simp] theorem State.setGroup_lqLast (s : State) (gi : Nat) (g : Group) : (s.setGroup gi g).lqLast = s.lqLast := rfl
@[simp] theorem State.setGroup_ctxtbl (s : State) (gi : Nat) (g : Group) : (s.setGroup gi g).ctxtbl = s.ctxtbl := rfl
@[simp] theorem State.setGroup_tlbVA (s : State) (gi : Nat) (g : Group) : (s.setGroup gi g).tlbVA = s.tlbVA := rfl
@[simp] theorem State.setGroup_tlbCtx (s : State) (gi : Nat) (g : Group) : (s.setGroup gi g).tlbCtx = s.tlbCtx := rfl
@[simp] theorem State.setGroup_tlbPages (s : State) (gi : Nat) (g : Group) : (s.setGroup gi g).tlbPages = s.tlbPages := rfl
@[simp] theorem State.setGroup_tlbDone (s : State) (gi : Nat) (g : Group) : (s.setGroup gi g).tlbDone = s.tlbDone := rfl
@[simp] theorem State.setGroup_frbase (s : State) (gi : Nat) (g : Group) : (s.setGroup gi g).frbase = s.frbase := rfl
@[simp] theorem State.setGroup_frtail (s : State) (gi : Nat) (g : Group) : (s.setGroup gi g).frtail = s.frtail := rfl
@[simp] theorem State.setGroup_frhead (s : State) (gi : Nat) (g : Group) : (s.setGroup gi g).frhead = s.frhead := rfl
@[simp] theorem State.setGroup_frSeq (s : State) (gi : Nat) (g : Group) : (s.setGroup gi g).frSeq = s.frSeq := rfl
@[simp] theorem State.setGroup_frRecs (s : State) (gi : Nat) (g : Group) : (s.setGroup gi g).frRecs = s.frRecs := rfl
@[simp] theorem State.setGroup_pecmd (s : State) (gi : Nat) (g : Group) : (s.setGroup gi g).pecmd = s.pecmd := rfl
@[simp] theorem State.setGroup_bringState (s : State) (gi : Nat) (g : Group) : (s.setGroup gi g).bringState = s.bringState := rfl
@[simp] theorem State.setGroup_bringStep (s : State) (gi : Nat) (g : Group) : (s.setGroup gi g).bringStep = s.bringStep := rfl
@[simp] theorem State.setGroup_bringFail (s : State) (gi : Nat) (g : Group) : (s.setGroup gi g).bringFail = s.bringFail := rfl
@[simp] theorem State.setGroup_bringLog (s : State) (gi : Nat) (g : Group) : (s.setGroup gi g).bringLog = s.bringLog := rfl
@[simp] theorem State.setGroup_firmware (s : State) (gi : Nat) (g : Group) : (s.setGroup gi g).firmware = s.firmware := rfl
@[simp] theorem State.setGroup_regions (s : State) (gi : Nat) (g : Group) : (s.setGroup gi g).regions = s.regions := rfl
@[simp] theorem State.setGroup_mapPend (s : State) (gi : Nat) (g : Group) : (s.setGroup gi g).mapPend = s.mapPend := rfl
@[simp] theorem State.setGroup_mapRegion (s : State) (gi : Nat) (g : Group) : (s.setGroup gi g).mapRegion = s.mapRegion := rfl
@[simp] theorem State.setGroup_mapWait (s : State) (gi : Nat) (g : Group) : (s.setGroup gi g).mapWait = s.mapWait := rfl
@[simp] theorem State.setGroup_cxlEvents (s : State) (gi : Nat) (g : Group) : (s.setGroup gi g).cxlEvents = s.cxlEvents := rfl
@[simp] theorem State.setGroup_ceTimes (s : State) (gi : Nat) (g : Group) : (s.setGroup gi g).ceTimes = s.ceTimes := rfl
@[simp] theorem State.setGroup_memwin (s : State) (gi : Nat) (g : Group) : (s.setGroup gi g).memwin = s.memwin := rfl
@[simp] theorem State.setGroup_tokcfg (s : State) (gi : Nat) (g : Group) : (s.setGroup gi g).tokcfg = s.tokcfg := rfl
@[simp] theorem State.setGroup_mapthr (s : State) (gi : Nat) (g : Group) : (s.setGroup gi g).mapthr = s.mapthr := rfl
@[simp] theorem State.setGroup_ptpcfg (s : State) (gi : Nat) (g : Group) : (s.setGroup gi g).ptpcfg = s.ptpcfg := rfl
@[simp] theorem State.setGroup_rasUe (s : State) (gi : Nat) (g : Group) : (s.setGroup gi g).rasUe = s.rasUe := rfl
@[simp] theorem State.setGroup_rasCe (s : State) (gi : Nat) (g : Group) : (s.setGroup gi g).rasCe = s.rasCe := rfl
@[simp] theorem State.setGroup_cxl (s : State) (gi : Nat) (g : Group) : (s.setGroup gi g).cxl = s.cxl := rfl
@[simp] theorem State.setGroup_cxlIo (s : State) (gi : Nat) (g : Group) : (s.setGroup gi g).cxlIo = s.cxlIo := rfl
@[simp] theorem State.setGroup_sideband (s : State) (gi : Nat) (g : Group) : (s.setGroup gi g).sideband = s.sideband := rfl
@[simp] theorem State.setGroup_links (s : State) (gi : Nat) (g : Group) : (s.setGroup gi g).links = s.links := rfl
@[simp] theorem State.setGroup_keydata (s : State) (gi : Nat) (g : Group) : (s.setGroup gi g).keydata = s.keydata := rfl
@[simp] theorem State.setGroup_keyStatus (s : State) (gi : Nat) (g : Group) : (s.setGroup gi g).keyStatus = s.keyStatus := rfl
@[simp] theorem State.setGroup_keySlot (s : State) (gi : Nat) (g : Group) : (s.setGroup gi g).keySlot = s.keySlot := rfl
@[simp] theorem State.setGroup_keyOp (s : State) (gi : Nat) (g : Group) : (s.setGroup gi g).keyOp = s.keyOp := rfl
@[simp] theorem State.setGroup_keyDies (s : State) (gi : Nat) (g : Group) : (s.setGroup gi g).keyDies = s.keyDies := rfl
@[simp] theorem State.setGroup_flash0 (s : State) (gi : Nat) (g : Group) : (s.setGroup gi g).flash0 = s.flash0 := rfl
@[simp] theorem State.setGroup_flash1 (s : State) (gi : Nat) (g : Group) : (s.setGroup gi g).flash1 = s.flash1 := rfl
@[simp] theorem State.setGroup_staged (s : State) (gi : Nat) (g : Group) : (s.setGroup gi g).staged = s.staged := rfl
@[simp] theorem State.setGroup_imageSeq (s : State) (gi : Nat) (g : Group) : (s.setGroup gi g).imageSeq = s.imageSeq := rfl
@[simp] theorem State.setGroup_flashActive (s : State) (gi : Nat) (g : Group) : (s.setGroup gi g).flashActive = s.flashActive := rfl
@[simp] theorem State.setGroup_image (s : State) (gi : Nat) (g : Group) : (s.setGroup gi g).image = s.image := rfl
@[simp] theorem State.setGroup_ports (s : State) (gi : Nat) (g : Group) : (s.setGroup gi g).ports = s.ports := rfl
@[simp] theorem State.setGroup_mailbox (s : State) (gi : Nat) (g : Group) : (s.setGroup gi g).mailbox = s.mailbox := rfl
@[simp] theorem State.setGroup_mailCode (s : State) (gi : Nat) (g : Group) : (s.setGroup gi g).mailCode = s.mailCode := rfl
@[simp] theorem State.setGroup_hostReply (s : State) (gi : Nat) (g : Group) : (s.setGroup gi g).hostReply = s.hostReply := rfl
@[simp] theorem State.modGroup_groups (s : State) (gi : Nat) (f : Group → Group) : (s.modGroup gi f).groups = s.groups.modify gi f := rfl
@[simp] theorem State.modGroup_cur (s : State) (gi : Nat) (f : Group → Group) : (s.modGroup gi f).cur = s.cur := rfl
@[simp] theorem State.modGroup_agenda (s : State) (gi : Nat) (f : Group → Group) : (s.modGroup gi f).agenda = s.agenda := rfl
@[simp] theorem State.modGroup_input (s : State) (gi : Nat) (f : Group → Group) : (s.modGroup gi f).input = s.input := rfl
@[simp] theorem State.modGroup_freeCount (s : State) (gi : Nat) (f : Group → Group) : (s.modGroup gi f).freeCount = s.freeCount := rfl
@[simp] theorem State.modGroup_teams (s : State) (gi : Nat) (f : Group → Group) : (s.modGroup gi f).teams = s.teams := rfl
@[simp] theorem State.modGroup_grids (s : State) (gi : Nat) (f : Group → Group) : (s.modGroup gi f).grids = s.grids := rfl
@[simp] theorem State.modGroup_nextGrid (s : State) (gi : Nat) (f : Group → Group) : (s.modGroup gi f).nextGrid = s.nextGrid := rfl
@[simp] theorem State.modGroup_waiting (s : State) (gi : Nat) (f : Group → Group) : (s.modGroup gi f).waiting = s.waiting := rfl
@[simp] theorem State.modGroup_mem (s : State) (gi : Nat) (f : Group → Group) : (s.modGroup gi f).mem = s.mem := rfl
@[simp] theorem State.modGroup_hostMem (s : State) (gi : Nat) (f : Group → Group) : (s.modGroup gi f).hostMem = s.hostMem := rfl
@[simp] theorem State.modGroup_poison (s : State) (gi : Nat) (f : Group → Group) : (s.modGroup gi f).poison = s.poison := rfl
@[simp] theorem State.modGroup_cache (s : State) (gi : Nat) (f : Group → Group) : (s.modGroup gi f).cache = s.cache := rfl
@[simp] theorem State.modGroup_keyTags (s : State) (gi : Nat) (f : Group → Group) : (s.modGroup gi f).keyTags = s.keyTags := rfl
@[simp] theorem State.modGroup_keys (s : State) (gi : Nat) (f : Group → Group) : (s.modGroup gi f).keys = s.keys := rfl
@[simp] theorem State.modGroup_ctxs (s : State) (gi : Nat) (f : Group → Group) : (s.modGroup gi f).ctxs = s.ctxs := rfl
@[simp] theorem State.modGroup_cue (s : State) (gi : Nat) (f : Group → Group) : (s.modGroup gi f).cue = s.cue := rfl
@[simp] theorem State.modGroup_cores (s : State) (gi : Nat) (f : Group → Group) : (s.modGroup gi f).cores = s.cores := rfl
@[simp] theorem State.modGroup_dies (s : State) (gi : Nat) (f : Group → Group) : (s.modGroup gi f).dies = s.dies := rfl
@[simp] theorem State.modGroup_rings (s : State) (gi : Nat) (f : Group → Group) : (s.modGroup gi f).rings = s.rings := rfl
@[simp] theorem State.modGroup_slates (s : State) (gi : Nat) (f : Group → Group) : (s.modGroup gi f).slates = s.slates := rfl
@[simp] theorem State.modGroup_slateSeq (s : State) (gi : Nat) (f : Group → Group) : (s.modGroup gi f).slateSeq = s.slateSeq := rfl
@[simp] theorem State.modGroup_slateLost (s : State) (gi : Nat) (f : Group → Group) : (s.modGroup gi f).slateLost = s.slateLost := rfl
@[simp] theorem State.modGroup_tf (s : State) (gi : Nat) (f : Group → Group) : (s.modGroup gi f).tf = s.tf := rfl
@[simp] theorem State.modGroup_origin (s : State) (gi : Nat) (f : Group → Group) : (s.modGroup gi f).origin = s.origin := rfl
@[simp] theorem State.modGroup_assembling (s : State) (gi : Nat) (f : Group → Group) : (s.modGroup gi f).assembling = s.assembling := rfl
@[simp] theorem State.modGroup_coldPending (s : State) (gi : Nat) (f : Group → Group) : (s.modGroup gi f).coldPending = s.coldPending := rfl
@[simp] theorem State.modGroup_reelen0 (s : State) (gi : Nat) (f : Group → Group) : (s.modGroup gi f).reelen0 = s.reelen0 := rfl
@[simp] theorem State.modGroup_reelen1 (s : State) (gi : Nat) (f : Group → Group) : (s.modGroup gi f).reelen1 = s.reelen1 := rfl
@[simp] theorem State.modGroup_cycle (s : State) (gi : Nat) (f : Group → Group) : (s.modGroup gi f).cycle = s.cycle := rfl
@[simp] theorem State.modGroup_nstime (s : State) (gi : Nat) (f : Group → Group) : (s.modGroup gi f).nstime = s.nstime := rfl
@[simp] theorem State.modGroup_nsRem (s : State) (gi : Nat) (f : Group → Group) : (s.modGroup gi f).nsRem = s.nsRem := rfl
@[simp] theorem State.modGroup_epochBit (s : State) (gi : Nat) (f : Group → Group) : (s.modGroup gi f).epochBit = s.epochBit := rfl
@[simp] theorem State.modGroup_timeOffset (s : State) (gi : Nat) (f : Group → Group) : (s.modGroup gi f).timeOffset = s.timeOffset := rfl
@[simp] theorem State.modGroup_timePort (s : State) (gi : Nat) (f : Group → Group) : (s.modGroup gi f).timePort = s.timePort := rfl
@[simp] theorem State.modGroup_timeState (s : State) (gi : Nat) (f : Group → Group) : (s.modGroup gi f).timeState = s.timeState := rfl
@[simp] theorem State.modGroup_slew (s : State) (gi : Nat) (f : Group → Group) : (s.modGroup gi f).slew = s.slew := rfl
@[simp] theorem State.modGroup_slewNs (s : State) (gi : Nat) (f : Group → Group) : (s.modGroup gi f).slewNs = s.slewNs := rfl
@[simp] theorem State.modGroup_lqbase (s : State) (gi : Nat) (f : Group → Group) : (s.modGroup gi f).lqbase = s.lqbase := rfl
@[simp] theorem State.modGroup_lqPtr (s : State) (gi : Nat) (f : Group → Group) : (s.modGroup gi f).lqPtr = s.lqPtr := rfl
@[simp] theorem State.modGroup_lqLast (s : State) (gi : Nat) (f : Group → Group) : (s.modGroup gi f).lqLast = s.lqLast := rfl
@[simp] theorem State.modGroup_ctxtbl (s : State) (gi : Nat) (f : Group → Group) : (s.modGroup gi f).ctxtbl = s.ctxtbl := rfl
@[simp] theorem State.modGroup_tlbVA (s : State) (gi : Nat) (f : Group → Group) : (s.modGroup gi f).tlbVA = s.tlbVA := rfl
@[simp] theorem State.modGroup_tlbCtx (s : State) (gi : Nat) (f : Group → Group) : (s.modGroup gi f).tlbCtx = s.tlbCtx := rfl
@[simp] theorem State.modGroup_tlbPages (s : State) (gi : Nat) (f : Group → Group) : (s.modGroup gi f).tlbPages = s.tlbPages := rfl
@[simp] theorem State.modGroup_tlbDone (s : State) (gi : Nat) (f : Group → Group) : (s.modGroup gi f).tlbDone = s.tlbDone := rfl
@[simp] theorem State.modGroup_frbase (s : State) (gi : Nat) (f : Group → Group) : (s.modGroup gi f).frbase = s.frbase := rfl
@[simp] theorem State.modGroup_frtail (s : State) (gi : Nat) (f : Group → Group) : (s.modGroup gi f).frtail = s.frtail := rfl
@[simp] theorem State.modGroup_frhead (s : State) (gi : Nat) (f : Group → Group) : (s.modGroup gi f).frhead = s.frhead := rfl
@[simp] theorem State.modGroup_frSeq (s : State) (gi : Nat) (f : Group → Group) : (s.modGroup gi f).frSeq = s.frSeq := rfl
@[simp] theorem State.modGroup_frRecs (s : State) (gi : Nat) (f : Group → Group) : (s.modGroup gi f).frRecs = s.frRecs := rfl
@[simp] theorem State.modGroup_pecmd (s : State) (gi : Nat) (f : Group → Group) : (s.modGroup gi f).pecmd = s.pecmd := rfl
@[simp] theorem State.modGroup_bringState (s : State) (gi : Nat) (f : Group → Group) : (s.modGroup gi f).bringState = s.bringState := rfl
@[simp] theorem State.modGroup_bringStep (s : State) (gi : Nat) (f : Group → Group) : (s.modGroup gi f).bringStep = s.bringStep := rfl
@[simp] theorem State.modGroup_bringFail (s : State) (gi : Nat) (f : Group → Group) : (s.modGroup gi f).bringFail = s.bringFail := rfl
@[simp] theorem State.modGroup_bringLog (s : State) (gi : Nat) (f : Group → Group) : (s.modGroup gi f).bringLog = s.bringLog := rfl
@[simp] theorem State.modGroup_firmware (s : State) (gi : Nat) (f : Group → Group) : (s.modGroup gi f).firmware = s.firmware := rfl
@[simp] theorem State.modGroup_regions (s : State) (gi : Nat) (f : Group → Group) : (s.modGroup gi f).regions = s.regions := rfl
@[simp] theorem State.modGroup_mapPend (s : State) (gi : Nat) (f : Group → Group) : (s.modGroup gi f).mapPend = s.mapPend := rfl
@[simp] theorem State.modGroup_mapRegion (s : State) (gi : Nat) (f : Group → Group) : (s.modGroup gi f).mapRegion = s.mapRegion := rfl
@[simp] theorem State.modGroup_mapWait (s : State) (gi : Nat) (f : Group → Group) : (s.modGroup gi f).mapWait = s.mapWait := rfl
@[simp] theorem State.modGroup_cxlEvents (s : State) (gi : Nat) (f : Group → Group) : (s.modGroup gi f).cxlEvents = s.cxlEvents := rfl
@[simp] theorem State.modGroup_ceTimes (s : State) (gi : Nat) (f : Group → Group) : (s.modGroup gi f).ceTimes = s.ceTimes := rfl
@[simp] theorem State.modGroup_memwin (s : State) (gi : Nat) (f : Group → Group) : (s.modGroup gi f).memwin = s.memwin := rfl
@[simp] theorem State.modGroup_tokcfg (s : State) (gi : Nat) (f : Group → Group) : (s.modGroup gi f).tokcfg = s.tokcfg := rfl
@[simp] theorem State.modGroup_mapthr (s : State) (gi : Nat) (f : Group → Group) : (s.modGroup gi f).mapthr = s.mapthr := rfl
@[simp] theorem State.modGroup_ptpcfg (s : State) (gi : Nat) (f : Group → Group) : (s.modGroup gi f).ptpcfg = s.ptpcfg := rfl
@[simp] theorem State.modGroup_rasUe (s : State) (gi : Nat) (f : Group → Group) : (s.modGroup gi f).rasUe = s.rasUe := rfl
@[simp] theorem State.modGroup_rasCe (s : State) (gi : Nat) (f : Group → Group) : (s.modGroup gi f).rasCe = s.rasCe := rfl
@[simp] theorem State.modGroup_cxl (s : State) (gi : Nat) (f : Group → Group) : (s.modGroup gi f).cxl = s.cxl := rfl
@[simp] theorem State.modGroup_cxlIo (s : State) (gi : Nat) (f : Group → Group) : (s.modGroup gi f).cxlIo = s.cxlIo := rfl
@[simp] theorem State.modGroup_sideband (s : State) (gi : Nat) (f : Group → Group) : (s.modGroup gi f).sideband = s.sideband := rfl
@[simp] theorem State.modGroup_links (s : State) (gi : Nat) (f : Group → Group) : (s.modGroup gi f).links = s.links := rfl
@[simp] theorem State.modGroup_keydata (s : State) (gi : Nat) (f : Group → Group) : (s.modGroup gi f).keydata = s.keydata := rfl
@[simp] theorem State.modGroup_keyStatus (s : State) (gi : Nat) (f : Group → Group) : (s.modGroup gi f).keyStatus = s.keyStatus := rfl
@[simp] theorem State.modGroup_keySlot (s : State) (gi : Nat) (f : Group → Group) : (s.modGroup gi f).keySlot = s.keySlot := rfl
@[simp] theorem State.modGroup_keyOp (s : State) (gi : Nat) (f : Group → Group) : (s.modGroup gi f).keyOp = s.keyOp := rfl
@[simp] theorem State.modGroup_keyDies (s : State) (gi : Nat) (f : Group → Group) : (s.modGroup gi f).keyDies = s.keyDies := rfl
@[simp] theorem State.modGroup_flash0 (s : State) (gi : Nat) (f : Group → Group) : (s.modGroup gi f).flash0 = s.flash0 := rfl
@[simp] theorem State.modGroup_flash1 (s : State) (gi : Nat) (f : Group → Group) : (s.modGroup gi f).flash1 = s.flash1 := rfl
@[simp] theorem State.modGroup_staged (s : State) (gi : Nat) (f : Group → Group) : (s.modGroup gi f).staged = s.staged := rfl
@[simp] theorem State.modGroup_imageSeq (s : State) (gi : Nat) (f : Group → Group) : (s.modGroup gi f).imageSeq = s.imageSeq := rfl
@[simp] theorem State.modGroup_flashActive (s : State) (gi : Nat) (f : Group → Group) : (s.modGroup gi f).flashActive = s.flashActive := rfl
@[simp] theorem State.modGroup_image (s : State) (gi : Nat) (f : Group → Group) : (s.modGroup gi f).image = s.image := rfl
@[simp] theorem State.modGroup_ports (s : State) (gi : Nat) (f : Group → Group) : (s.modGroup gi f).ports = s.ports := rfl
@[simp] theorem State.modGroup_mailbox (s : State) (gi : Nat) (f : Group → Group) : (s.modGroup gi f).mailbox = s.mailbox := rfl
@[simp] theorem State.modGroup_mailCode (s : State) (gi : Nat) (f : Group → Group) : (s.modGroup gi f).mailCode = s.mailCode := rfl
@[simp] theorem State.modGroup_hostReply (s : State) (gi : Nat) (f : Group → Group) : (s.modGroup gi f).hostReply = s.hostReply := rfl
@[simp] theorem State.modGrid_groups (s : State) (id : W32) (f : Grid → Grid) : (s.modGrid id f).groups = s.groups := rfl
@[simp] theorem State.modGrid_cur (s : State) (id : W32) (f : Grid → Grid) : (s.modGrid id f).cur = s.cur := rfl
@[simp] theorem State.modGrid_agenda (s : State) (id : W32) (f : Grid → Grid) : (s.modGrid id f).agenda = s.agenda := rfl
@[simp] theorem State.modGrid_input (s : State) (id : W32) (f : Grid → Grid) : (s.modGrid id f).input = s.input := rfl
@[simp] theorem State.modGrid_freeCount (s : State) (id : W32) (f : Grid → Grid) : (s.modGrid id f).freeCount = s.freeCount := rfl
@[simp] theorem State.modGrid_teams (s : State) (id : W32) (f : Grid → Grid) : (s.modGrid id f).teams = s.teams := rfl
@[simp] theorem State.modGrid_nextGrid (s : State) (id : W32) (f : Grid → Grid) : (s.modGrid id f).nextGrid = s.nextGrid := rfl
@[simp] theorem State.modGrid_waiting (s : State) (id : W32) (f : Grid → Grid) : (s.modGrid id f).waiting = s.waiting := rfl
@[simp] theorem State.modGrid_mem (s : State) (id : W32) (f : Grid → Grid) : (s.modGrid id f).mem = s.mem := rfl
@[simp] theorem State.modGrid_hostMem (s : State) (id : W32) (f : Grid → Grid) : (s.modGrid id f).hostMem = s.hostMem := rfl
@[simp] theorem State.modGrid_poison (s : State) (id : W32) (f : Grid → Grid) : (s.modGrid id f).poison = s.poison := rfl
@[simp] theorem State.modGrid_cache (s : State) (id : W32) (f : Grid → Grid) : (s.modGrid id f).cache = s.cache := rfl
@[simp] theorem State.modGrid_keyTags (s : State) (id : W32) (f : Grid → Grid) : (s.modGrid id f).keyTags = s.keyTags := rfl
@[simp] theorem State.modGrid_keys (s : State) (id : W32) (f : Grid → Grid) : (s.modGrid id f).keys = s.keys := rfl
@[simp] theorem State.modGrid_ctxs (s : State) (id : W32) (f : Grid → Grid) : (s.modGrid id f).ctxs = s.ctxs := rfl
@[simp] theorem State.modGrid_cue (s : State) (id : W32) (f : Grid → Grid) : (s.modGrid id f).cue = s.cue := rfl
@[simp] theorem State.modGrid_cores (s : State) (id : W32) (f : Grid → Grid) : (s.modGrid id f).cores = s.cores := rfl
@[simp] theorem State.modGrid_dies (s : State) (id : W32) (f : Grid → Grid) : (s.modGrid id f).dies = s.dies := rfl
@[simp] theorem State.modGrid_rings (s : State) (id : W32) (f : Grid → Grid) : (s.modGrid id f).rings = s.rings := rfl
@[simp] theorem State.modGrid_slates (s : State) (id : W32) (f : Grid → Grid) : (s.modGrid id f).slates = s.slates := rfl
@[simp] theorem State.modGrid_slateSeq (s : State) (id : W32) (f : Grid → Grid) : (s.modGrid id f).slateSeq = s.slateSeq := rfl
@[simp] theorem State.modGrid_slateLost (s : State) (id : W32) (f : Grid → Grid) : (s.modGrid id f).slateLost = s.slateLost := rfl
@[simp] theorem State.modGrid_tf (s : State) (id : W32) (f : Grid → Grid) : (s.modGrid id f).tf = s.tf := rfl
@[simp] theorem State.modGrid_origin (s : State) (id : W32) (f : Grid → Grid) : (s.modGrid id f).origin = s.origin := rfl
@[simp] theorem State.modGrid_assembling (s : State) (id : W32) (f : Grid → Grid) : (s.modGrid id f).assembling = s.assembling := rfl
@[simp] theorem State.modGrid_coldPending (s : State) (id : W32) (f : Grid → Grid) : (s.modGrid id f).coldPending = s.coldPending := rfl
@[simp] theorem State.modGrid_reelen0 (s : State) (id : W32) (f : Grid → Grid) : (s.modGrid id f).reelen0 = s.reelen0 := rfl
@[simp] theorem State.modGrid_reelen1 (s : State) (id : W32) (f : Grid → Grid) : (s.modGrid id f).reelen1 = s.reelen1 := rfl
@[simp] theorem State.modGrid_cycle (s : State) (id : W32) (f : Grid → Grid) : (s.modGrid id f).cycle = s.cycle := rfl
@[simp] theorem State.modGrid_nstime (s : State) (id : W32) (f : Grid → Grid) : (s.modGrid id f).nstime = s.nstime := rfl
@[simp] theorem State.modGrid_nsRem (s : State) (id : W32) (f : Grid → Grid) : (s.modGrid id f).nsRem = s.nsRem := rfl
@[simp] theorem State.modGrid_epochBit (s : State) (id : W32) (f : Grid → Grid) : (s.modGrid id f).epochBit = s.epochBit := rfl
@[simp] theorem State.modGrid_timeOffset (s : State) (id : W32) (f : Grid → Grid) : (s.modGrid id f).timeOffset = s.timeOffset := rfl
@[simp] theorem State.modGrid_timePort (s : State) (id : W32) (f : Grid → Grid) : (s.modGrid id f).timePort = s.timePort := rfl
@[simp] theorem State.modGrid_timeState (s : State) (id : W32) (f : Grid → Grid) : (s.modGrid id f).timeState = s.timeState := rfl
@[simp] theorem State.modGrid_slew (s : State) (id : W32) (f : Grid → Grid) : (s.modGrid id f).slew = s.slew := rfl
@[simp] theorem State.modGrid_slewNs (s : State) (id : W32) (f : Grid → Grid) : (s.modGrid id f).slewNs = s.slewNs := rfl
@[simp] theorem State.modGrid_lqbase (s : State) (id : W32) (f : Grid → Grid) : (s.modGrid id f).lqbase = s.lqbase := rfl
@[simp] theorem State.modGrid_lqPtr (s : State) (id : W32) (f : Grid → Grid) : (s.modGrid id f).lqPtr = s.lqPtr := rfl
@[simp] theorem State.modGrid_lqLast (s : State) (id : W32) (f : Grid → Grid) : (s.modGrid id f).lqLast = s.lqLast := rfl
@[simp] theorem State.modGrid_ctxtbl (s : State) (id : W32) (f : Grid → Grid) : (s.modGrid id f).ctxtbl = s.ctxtbl := rfl
@[simp] theorem State.modGrid_tlbVA (s : State) (id : W32) (f : Grid → Grid) : (s.modGrid id f).tlbVA = s.tlbVA := rfl
@[simp] theorem State.modGrid_tlbCtx (s : State) (id : W32) (f : Grid → Grid) : (s.modGrid id f).tlbCtx = s.tlbCtx := rfl
@[simp] theorem State.modGrid_tlbPages (s : State) (id : W32) (f : Grid → Grid) : (s.modGrid id f).tlbPages = s.tlbPages := rfl
@[simp] theorem State.modGrid_tlbDone (s : State) (id : W32) (f : Grid → Grid) : (s.modGrid id f).tlbDone = s.tlbDone := rfl
@[simp] theorem State.modGrid_frbase (s : State) (id : W32) (f : Grid → Grid) : (s.modGrid id f).frbase = s.frbase := rfl
@[simp] theorem State.modGrid_frtail (s : State) (id : W32) (f : Grid → Grid) : (s.modGrid id f).frtail = s.frtail := rfl
@[simp] theorem State.modGrid_frhead (s : State) (id : W32) (f : Grid → Grid) : (s.modGrid id f).frhead = s.frhead := rfl
@[simp] theorem State.modGrid_frSeq (s : State) (id : W32) (f : Grid → Grid) : (s.modGrid id f).frSeq = s.frSeq := rfl
@[simp] theorem State.modGrid_frRecs (s : State) (id : W32) (f : Grid → Grid) : (s.modGrid id f).frRecs = s.frRecs := rfl
@[simp] theorem State.modGrid_pecmd (s : State) (id : W32) (f : Grid → Grid) : (s.modGrid id f).pecmd = s.pecmd := rfl
@[simp] theorem State.modGrid_bringState (s : State) (id : W32) (f : Grid → Grid) : (s.modGrid id f).bringState = s.bringState := rfl
@[simp] theorem State.modGrid_bringStep (s : State) (id : W32) (f : Grid → Grid) : (s.modGrid id f).bringStep = s.bringStep := rfl
@[simp] theorem State.modGrid_bringFail (s : State) (id : W32) (f : Grid → Grid) : (s.modGrid id f).bringFail = s.bringFail := rfl
@[simp] theorem State.modGrid_bringLog (s : State) (id : W32) (f : Grid → Grid) : (s.modGrid id f).bringLog = s.bringLog := rfl
@[simp] theorem State.modGrid_firmware (s : State) (id : W32) (f : Grid → Grid) : (s.modGrid id f).firmware = s.firmware := rfl
@[simp] theorem State.modGrid_regions (s : State) (id : W32) (f : Grid → Grid) : (s.modGrid id f).regions = s.regions := rfl
@[simp] theorem State.modGrid_mapPend (s : State) (id : W32) (f : Grid → Grid) : (s.modGrid id f).mapPend = s.mapPend := rfl
@[simp] theorem State.modGrid_mapRegion (s : State) (id : W32) (f : Grid → Grid) : (s.modGrid id f).mapRegion = s.mapRegion := rfl
@[simp] theorem State.modGrid_mapWait (s : State) (id : W32) (f : Grid → Grid) : (s.modGrid id f).mapWait = s.mapWait := rfl
@[simp] theorem State.modGrid_cxlEvents (s : State) (id : W32) (f : Grid → Grid) : (s.modGrid id f).cxlEvents = s.cxlEvents := rfl
@[simp] theorem State.modGrid_ceTimes (s : State) (id : W32) (f : Grid → Grid) : (s.modGrid id f).ceTimes = s.ceTimes := rfl
@[simp] theorem State.modGrid_memwin (s : State) (id : W32) (f : Grid → Grid) : (s.modGrid id f).memwin = s.memwin := rfl
@[simp] theorem State.modGrid_tokcfg (s : State) (id : W32) (f : Grid → Grid) : (s.modGrid id f).tokcfg = s.tokcfg := rfl
@[simp] theorem State.modGrid_mapthr (s : State) (id : W32) (f : Grid → Grid) : (s.modGrid id f).mapthr = s.mapthr := rfl
@[simp] theorem State.modGrid_ptpcfg (s : State) (id : W32) (f : Grid → Grid) : (s.modGrid id f).ptpcfg = s.ptpcfg := rfl
@[simp] theorem State.modGrid_rasUe (s : State) (id : W32) (f : Grid → Grid) : (s.modGrid id f).rasUe = s.rasUe := rfl
@[simp] theorem State.modGrid_rasCe (s : State) (id : W32) (f : Grid → Grid) : (s.modGrid id f).rasCe = s.rasCe := rfl
@[simp] theorem State.modGrid_cxl (s : State) (id : W32) (f : Grid → Grid) : (s.modGrid id f).cxl = s.cxl := rfl
@[simp] theorem State.modGrid_cxlIo (s : State) (id : W32) (f : Grid → Grid) : (s.modGrid id f).cxlIo = s.cxlIo := rfl
@[simp] theorem State.modGrid_sideband (s : State) (id : W32) (f : Grid → Grid) : (s.modGrid id f).sideband = s.sideband := rfl
@[simp] theorem State.modGrid_links (s : State) (id : W32) (f : Grid → Grid) : (s.modGrid id f).links = s.links := rfl
@[simp] theorem State.modGrid_keydata (s : State) (id : W32) (f : Grid → Grid) : (s.modGrid id f).keydata = s.keydata := rfl
@[simp] theorem State.modGrid_keyStatus (s : State) (id : W32) (f : Grid → Grid) : (s.modGrid id f).keyStatus = s.keyStatus := rfl
@[simp] theorem State.modGrid_keySlot (s : State) (id : W32) (f : Grid → Grid) : (s.modGrid id f).keySlot = s.keySlot := rfl
@[simp] theorem State.modGrid_keyOp (s : State) (id : W32) (f : Grid → Grid) : (s.modGrid id f).keyOp = s.keyOp := rfl
@[simp] theorem State.modGrid_keyDies (s : State) (id : W32) (f : Grid → Grid) : (s.modGrid id f).keyDies = s.keyDies := rfl
@[simp] theorem State.modGrid_flash0 (s : State) (id : W32) (f : Grid → Grid) : (s.modGrid id f).flash0 = s.flash0 := rfl
@[simp] theorem State.modGrid_flash1 (s : State) (id : W32) (f : Grid → Grid) : (s.modGrid id f).flash1 = s.flash1 := rfl
@[simp] theorem State.modGrid_staged (s : State) (id : W32) (f : Grid → Grid) : (s.modGrid id f).staged = s.staged := rfl
@[simp] theorem State.modGrid_imageSeq (s : State) (id : W32) (f : Grid → Grid) : (s.modGrid id f).imageSeq = s.imageSeq := rfl
@[simp] theorem State.modGrid_flashActive (s : State) (id : W32) (f : Grid → Grid) : (s.modGrid id f).flashActive = s.flashActive := rfl
@[simp] theorem State.modGrid_image (s : State) (id : W32) (f : Grid → Grid) : (s.modGrid id f).image = s.image := rfl
@[simp] theorem State.modGrid_ports (s : State) (id : W32) (f : Grid → Grid) : (s.modGrid id f).ports = s.ports := rfl
@[simp] theorem State.modGrid_mailbox (s : State) (id : W32) (f : Grid → Grid) : (s.modGrid id f).mailbox = s.mailbox := rfl
@[simp] theorem State.modGrid_mailCode (s : State) (id : W32) (f : Grid → Grid) : (s.modGrid id f).mailCode = s.mailCode := rfl
@[simp] theorem State.modGrid_hostReply (s : State) (id : W32) (f : Grid → Grid) : (s.modGrid id f).hostReply = s.hostReply := rfl
@[simp] theorem State.setCtx_groups (s : State) (c : Ctx) : (s.setCtx c).groups = s.groups := by unfold State.setCtx; split <;> rfl
@[simp] theorem State.setCtx_cur (s : State) (c : Ctx) : (s.setCtx c).cur = s.cur := by unfold State.setCtx; split <;> rfl
@[simp] theorem State.setCtx_agenda (s : State) (c : Ctx) : (s.setCtx c).agenda = s.agenda := by unfold State.setCtx; split <;> rfl
@[simp] theorem State.setCtx_input (s : State) (c : Ctx) : (s.setCtx c).input = s.input := by unfold State.setCtx; split <;> rfl
@[simp] theorem State.setCtx_freeCount (s : State) (c : Ctx) : (s.setCtx c).freeCount = s.freeCount := by unfold State.setCtx; split <;> rfl
@[simp] theorem State.setCtx_teams (s : State) (c : Ctx) : (s.setCtx c).teams = s.teams := by unfold State.setCtx; split <;> rfl
@[simp] theorem State.setCtx_grids (s : State) (c : Ctx) : (s.setCtx c).grids = s.grids := by unfold State.setCtx; split <;> rfl
@[simp] theorem State.setCtx_nextGrid (s : State) (c : Ctx) : (s.setCtx c).nextGrid = s.nextGrid := by unfold State.setCtx; split <;> rfl
@[simp] theorem State.setCtx_waiting (s : State) (c : Ctx) : (s.setCtx c).waiting = s.waiting := by unfold State.setCtx; split <;> rfl
@[simp] theorem State.setCtx_mem (s : State) (c : Ctx) : (s.setCtx c).mem = s.mem := by unfold State.setCtx; split <;> rfl
@[simp] theorem State.setCtx_hostMem (s : State) (c : Ctx) : (s.setCtx c).hostMem = s.hostMem := by unfold State.setCtx; split <;> rfl
@[simp] theorem State.setCtx_poison (s : State) (c : Ctx) : (s.setCtx c).poison = s.poison := by unfold State.setCtx; split <;> rfl
@[simp] theorem State.setCtx_cache (s : State) (c : Ctx) : (s.setCtx c).cache = s.cache := by unfold State.setCtx; split <;> rfl
@[simp] theorem State.setCtx_keyTags (s : State) (c : Ctx) : (s.setCtx c).keyTags = s.keyTags := by unfold State.setCtx; split <;> rfl
@[simp] theorem State.setCtx_keys (s : State) (c : Ctx) : (s.setCtx c).keys = s.keys := by unfold State.setCtx; split <;> rfl
@[simp] theorem State.setCtx_cue (s : State) (c : Ctx) : (s.setCtx c).cue = s.cue := by unfold State.setCtx; split <;> rfl
@[simp] theorem State.setCtx_cores (s : State) (c : Ctx) : (s.setCtx c).cores = s.cores := by unfold State.setCtx; split <;> rfl
@[simp] theorem State.setCtx_dies (s : State) (c : Ctx) : (s.setCtx c).dies = s.dies := by unfold State.setCtx; split <;> rfl
@[simp] theorem State.setCtx_rings (s : State) (c : Ctx) : (s.setCtx c).rings = s.rings := by unfold State.setCtx; split <;> rfl
@[simp] theorem State.setCtx_slates (s : State) (c : Ctx) : (s.setCtx c).slates = s.slates := by unfold State.setCtx; split <;> rfl
@[simp] theorem State.setCtx_slateSeq (s : State) (c : Ctx) : (s.setCtx c).slateSeq = s.slateSeq := by unfold State.setCtx; split <;> rfl
@[simp] theorem State.setCtx_slateLost (s : State) (c : Ctx) : (s.setCtx c).slateLost = s.slateLost := by unfold State.setCtx; split <;> rfl
@[simp] theorem State.setCtx_tf (s : State) (c : Ctx) : (s.setCtx c).tf = s.tf := by unfold State.setCtx; split <;> rfl
@[simp] theorem State.setCtx_origin (s : State) (c : Ctx) : (s.setCtx c).origin = s.origin := by unfold State.setCtx; split <;> rfl
@[simp] theorem State.setCtx_assembling (s : State) (c : Ctx) : (s.setCtx c).assembling = s.assembling := by unfold State.setCtx; split <;> rfl
@[simp] theorem State.setCtx_coldPending (s : State) (c : Ctx) : (s.setCtx c).coldPending = s.coldPending := by unfold State.setCtx; split <;> rfl
@[simp] theorem State.setCtx_reelen0 (s : State) (c : Ctx) : (s.setCtx c).reelen0 = s.reelen0 := by unfold State.setCtx; split <;> rfl
@[simp] theorem State.setCtx_reelen1 (s : State) (c : Ctx) : (s.setCtx c).reelen1 = s.reelen1 := by unfold State.setCtx; split <;> rfl
@[simp] theorem State.setCtx_cycle (s : State) (c : Ctx) : (s.setCtx c).cycle = s.cycle := by unfold State.setCtx; split <;> rfl
@[simp] theorem State.setCtx_nstime (s : State) (c : Ctx) : (s.setCtx c).nstime = s.nstime := by unfold State.setCtx; split <;> rfl
@[simp] theorem State.setCtx_nsRem (s : State) (c : Ctx) : (s.setCtx c).nsRem = s.nsRem := by unfold State.setCtx; split <;> rfl
@[simp] theorem State.setCtx_epochBit (s : State) (c : Ctx) : (s.setCtx c).epochBit = s.epochBit := by unfold State.setCtx; split <;> rfl
@[simp] theorem State.setCtx_timeOffset (s : State) (c : Ctx) : (s.setCtx c).timeOffset = s.timeOffset := by unfold State.setCtx; split <;> rfl
@[simp] theorem State.setCtx_timePort (s : State) (c : Ctx) : (s.setCtx c).timePort = s.timePort := by unfold State.setCtx; split <;> rfl
@[simp] theorem State.setCtx_timeState (s : State) (c : Ctx) : (s.setCtx c).timeState = s.timeState := by unfold State.setCtx; split <;> rfl
@[simp] theorem State.setCtx_slew (s : State) (c : Ctx) : (s.setCtx c).slew = s.slew := by unfold State.setCtx; split <;> rfl
@[simp] theorem State.setCtx_slewNs (s : State) (c : Ctx) : (s.setCtx c).slewNs = s.slewNs := by unfold State.setCtx; split <;> rfl
@[simp] theorem State.setCtx_lqbase (s : State) (c : Ctx) : (s.setCtx c).lqbase = s.lqbase := by unfold State.setCtx; split <;> rfl
@[simp] theorem State.setCtx_lqPtr (s : State) (c : Ctx) : (s.setCtx c).lqPtr = s.lqPtr := by unfold State.setCtx; split <;> rfl
@[simp] theorem State.setCtx_lqLast (s : State) (c : Ctx) : (s.setCtx c).lqLast = s.lqLast := by unfold State.setCtx; split <;> rfl
@[simp] theorem State.setCtx_ctxtbl (s : State) (c : Ctx) : (s.setCtx c).ctxtbl = s.ctxtbl := by unfold State.setCtx; split <;> rfl
@[simp] theorem State.setCtx_tlbVA (s : State) (c : Ctx) : (s.setCtx c).tlbVA = s.tlbVA := by unfold State.setCtx; split <;> rfl
@[simp] theorem State.setCtx_tlbCtx (s : State) (c : Ctx) : (s.setCtx c).tlbCtx = s.tlbCtx := by unfold State.setCtx; split <;> rfl
@[simp] theorem State.setCtx_tlbPages (s : State) (c : Ctx) : (s.setCtx c).tlbPages = s.tlbPages := by unfold State.setCtx; split <;> rfl
@[simp] theorem State.setCtx_tlbDone (s : State) (c : Ctx) : (s.setCtx c).tlbDone = s.tlbDone := by unfold State.setCtx; split <;> rfl
@[simp] theorem State.setCtx_frbase (s : State) (c : Ctx) : (s.setCtx c).frbase = s.frbase := by unfold State.setCtx; split <;> rfl
@[simp] theorem State.setCtx_frtail (s : State) (c : Ctx) : (s.setCtx c).frtail = s.frtail := by unfold State.setCtx; split <;> rfl
@[simp] theorem State.setCtx_frhead (s : State) (c : Ctx) : (s.setCtx c).frhead = s.frhead := by unfold State.setCtx; split <;> rfl
@[simp] theorem State.setCtx_frSeq (s : State) (c : Ctx) : (s.setCtx c).frSeq = s.frSeq := by unfold State.setCtx; split <;> rfl
@[simp] theorem State.setCtx_frRecs (s : State) (c : Ctx) : (s.setCtx c).frRecs = s.frRecs := by unfold State.setCtx; split <;> rfl
@[simp] theorem State.setCtx_pecmd (s : State) (c : Ctx) : (s.setCtx c).pecmd = s.pecmd := by unfold State.setCtx; split <;> rfl
@[simp] theorem State.setCtx_bringState (s : State) (c : Ctx) : (s.setCtx c).bringState = s.bringState := by unfold State.setCtx; split <;> rfl
@[simp] theorem State.setCtx_bringStep (s : State) (c : Ctx) : (s.setCtx c).bringStep = s.bringStep := by unfold State.setCtx; split <;> rfl
@[simp] theorem State.setCtx_bringFail (s : State) (c : Ctx) : (s.setCtx c).bringFail = s.bringFail := by unfold State.setCtx; split <;> rfl
@[simp] theorem State.setCtx_bringLog (s : State) (c : Ctx) : (s.setCtx c).bringLog = s.bringLog := by unfold State.setCtx; split <;> rfl
@[simp] theorem State.setCtx_firmware (s : State) (c : Ctx) : (s.setCtx c).firmware = s.firmware := by unfold State.setCtx; split <;> rfl
@[simp] theorem State.setCtx_regions (s : State) (c : Ctx) : (s.setCtx c).regions = s.regions := by unfold State.setCtx; split <;> rfl
@[simp] theorem State.setCtx_mapPend (s : State) (c : Ctx) : (s.setCtx c).mapPend = s.mapPend := by unfold State.setCtx; split <;> rfl
@[simp] theorem State.setCtx_mapRegion (s : State) (c : Ctx) : (s.setCtx c).mapRegion = s.mapRegion := by unfold State.setCtx; split <;> rfl
@[simp] theorem State.setCtx_mapWait (s : State) (c : Ctx) : (s.setCtx c).mapWait = s.mapWait := by unfold State.setCtx; split <;> rfl
@[simp] theorem State.setCtx_cxlEvents (s : State) (c : Ctx) : (s.setCtx c).cxlEvents = s.cxlEvents := by unfold State.setCtx; split <;> rfl
@[simp] theorem State.setCtx_ceTimes (s : State) (c : Ctx) : (s.setCtx c).ceTimes = s.ceTimes := by unfold State.setCtx; split <;> rfl
@[simp] theorem State.setCtx_memwin (s : State) (c : Ctx) : (s.setCtx c).memwin = s.memwin := by unfold State.setCtx; split <;> rfl
@[simp] theorem State.setCtx_tokcfg (s : State) (c : Ctx) : (s.setCtx c).tokcfg = s.tokcfg := by unfold State.setCtx; split <;> rfl
@[simp] theorem State.setCtx_mapthr (s : State) (c : Ctx) : (s.setCtx c).mapthr = s.mapthr := by unfold State.setCtx; split <;> rfl
@[simp] theorem State.setCtx_ptpcfg (s : State) (c : Ctx) : (s.setCtx c).ptpcfg = s.ptpcfg := by unfold State.setCtx; split <;> rfl
@[simp] theorem State.setCtx_rasUe (s : State) (c : Ctx) : (s.setCtx c).rasUe = s.rasUe := by unfold State.setCtx; split <;> rfl
@[simp] theorem State.setCtx_rasCe (s : State) (c : Ctx) : (s.setCtx c).rasCe = s.rasCe := by unfold State.setCtx; split <;> rfl
@[simp] theorem State.setCtx_cxl (s : State) (c : Ctx) : (s.setCtx c).cxl = s.cxl := by unfold State.setCtx; split <;> rfl
@[simp] theorem State.setCtx_cxlIo (s : State) (c : Ctx) : (s.setCtx c).cxlIo = s.cxlIo := by unfold State.setCtx; split <;> rfl
@[simp] theorem State.setCtx_sideband (s : State) (c : Ctx) : (s.setCtx c).sideband = s.sideband := by unfold State.setCtx; split <;> rfl
@[simp] theorem State.setCtx_links (s : State) (c : Ctx) : (s.setCtx c).links = s.links := by unfold State.setCtx; split <;> rfl
@[simp] theorem State.setCtx_keydata (s : State) (c : Ctx) : (s.setCtx c).keydata = s.keydata := by unfold State.setCtx; split <;> rfl
@[simp] theorem State.setCtx_keyStatus (s : State) (c : Ctx) : (s.setCtx c).keyStatus = s.keyStatus := by unfold State.setCtx; split <;> rfl
@[simp] theorem State.setCtx_keySlot (s : State) (c : Ctx) : (s.setCtx c).keySlot = s.keySlot := by unfold State.setCtx; split <;> rfl
@[simp] theorem State.setCtx_keyOp (s : State) (c : Ctx) : (s.setCtx c).keyOp = s.keyOp := by unfold State.setCtx; split <;> rfl
@[simp] theorem State.setCtx_keyDies (s : State) (c : Ctx) : (s.setCtx c).keyDies = s.keyDies := by unfold State.setCtx; split <;> rfl
@[simp] theorem State.setCtx_flash0 (s : State) (c : Ctx) : (s.setCtx c).flash0 = s.flash0 := by unfold State.setCtx; split <;> rfl
@[simp] theorem State.setCtx_flash1 (s : State) (c : Ctx) : (s.setCtx c).flash1 = s.flash1 := by unfold State.setCtx; split <;> rfl
@[simp] theorem State.setCtx_staged (s : State) (c : Ctx) : (s.setCtx c).staged = s.staged := by unfold State.setCtx; split <;> rfl
@[simp] theorem State.setCtx_imageSeq (s : State) (c : Ctx) : (s.setCtx c).imageSeq = s.imageSeq := by unfold State.setCtx; split <;> rfl
@[simp] theorem State.setCtx_flashActive (s : State) (c : Ctx) : (s.setCtx c).flashActive = s.flashActive := by unfold State.setCtx; split <;> rfl
@[simp] theorem State.setCtx_image (s : State) (c : Ctx) : (s.setCtx c).image = s.image := by unfold State.setCtx; split <;> rfl
@[simp] theorem State.setCtx_ports (s : State) (c : Ctx) : (s.setCtx c).ports = s.ports := by unfold State.setCtx; split <;> rfl
@[simp] theorem State.setCtx_mailbox (s : State) (c : Ctx) : (s.setCtx c).mailbox = s.mailbox := by unfold State.setCtx; split <;> rfl
@[simp] theorem State.setCtx_mailCode (s : State) (c : Ctx) : (s.setCtx c).mailCode = s.mailCode := by unfold State.setCtx; split <;> rfl
@[simp] theorem State.setCtx_hostReply (s : State) (c : Ctx) : (s.setCtx c).hostReply = s.hostReply := by unfold State.setCtx; split <;> rfl
@[simp] theorem State.modCore_groups (s : State) (core : Nat) (f : Core → Core) : (s.modCore core f).groups = s.groups := rfl
@[simp] theorem State.modCore_cur (s : State) (core : Nat) (f : Core → Core) : (s.modCore core f).cur = s.cur := rfl
@[simp] theorem State.modCore_agenda (s : State) (core : Nat) (f : Core → Core) : (s.modCore core f).agenda = s.agenda := rfl
@[simp] theorem State.modCore_input (s : State) (core : Nat) (f : Core → Core) : (s.modCore core f).input = s.input := rfl
@[simp] theorem State.modCore_freeCount (s : State) (core : Nat) (f : Core → Core) : (s.modCore core f).freeCount = s.freeCount := rfl
@[simp] theorem State.modCore_teams (s : State) (core : Nat) (f : Core → Core) : (s.modCore core f).teams = s.teams := rfl
@[simp] theorem State.modCore_grids (s : State) (core : Nat) (f : Core → Core) : (s.modCore core f).grids = s.grids := rfl
@[simp] theorem State.modCore_nextGrid (s : State) (core : Nat) (f : Core → Core) : (s.modCore core f).nextGrid = s.nextGrid := rfl
@[simp] theorem State.modCore_waiting (s : State) (core : Nat) (f : Core → Core) : (s.modCore core f).waiting = s.waiting := rfl
@[simp] theorem State.modCore_mem (s : State) (core : Nat) (f : Core → Core) : (s.modCore core f).mem = s.mem := rfl
@[simp] theorem State.modCore_hostMem (s : State) (core : Nat) (f : Core → Core) : (s.modCore core f).hostMem = s.hostMem := rfl
@[simp] theorem State.modCore_poison (s : State) (core : Nat) (f : Core → Core) : (s.modCore core f).poison = s.poison := rfl
@[simp] theorem State.modCore_cache (s : State) (core : Nat) (f : Core → Core) : (s.modCore core f).cache = s.cache := rfl
@[simp] theorem State.modCore_keyTags (s : State) (core : Nat) (f : Core → Core) : (s.modCore core f).keyTags = s.keyTags := rfl
@[simp] theorem State.modCore_keys (s : State) (core : Nat) (f : Core → Core) : (s.modCore core f).keys = s.keys := rfl
@[simp] theorem State.modCore_ctxs (s : State) (core : Nat) (f : Core → Core) : (s.modCore core f).ctxs = s.ctxs := rfl
@[simp] theorem State.modCore_cue (s : State) (core : Nat) (f : Core → Core) : (s.modCore core f).cue = s.cue := rfl
@[simp] theorem State.modCore_cores (s : State) (core : Nat) (f : Core → Core) : (s.modCore core f).cores = s.cores.modify core f := rfl
@[simp] theorem State.modCore_dies (s : State) (core : Nat) (f : Core → Core) : (s.modCore core f).dies = s.dies := rfl
@[simp] theorem State.modCore_rings (s : State) (core : Nat) (f : Core → Core) : (s.modCore core f).rings = s.rings := rfl
@[simp] theorem State.modCore_slates (s : State) (core : Nat) (f : Core → Core) : (s.modCore core f).slates = s.slates := rfl
@[simp] theorem State.modCore_slateSeq (s : State) (core : Nat) (f : Core → Core) : (s.modCore core f).slateSeq = s.slateSeq := rfl
@[simp] theorem State.modCore_slateLost (s : State) (core : Nat) (f : Core → Core) : (s.modCore core f).slateLost = s.slateLost := rfl
@[simp] theorem State.modCore_tf (s : State) (core : Nat) (f : Core → Core) : (s.modCore core f).tf = s.tf := rfl
@[simp] theorem State.modCore_origin (s : State) (core : Nat) (f : Core → Core) : (s.modCore core f).origin = s.origin := rfl
@[simp] theorem State.modCore_assembling (s : State) (core : Nat) (f : Core → Core) : (s.modCore core f).assembling = s.assembling := rfl
@[simp] theorem State.modCore_coldPending (s : State) (core : Nat) (f : Core → Core) : (s.modCore core f).coldPending = s.coldPending := rfl
@[simp] theorem State.modCore_reelen0 (s : State) (core : Nat) (f : Core → Core) : (s.modCore core f).reelen0 = s.reelen0 := rfl
@[simp] theorem State.modCore_reelen1 (s : State) (core : Nat) (f : Core → Core) : (s.modCore core f).reelen1 = s.reelen1 := rfl
@[simp] theorem State.modCore_cycle (s : State) (core : Nat) (f : Core → Core) : (s.modCore core f).cycle = s.cycle := rfl
@[simp] theorem State.modCore_nstime (s : State) (core : Nat) (f : Core → Core) : (s.modCore core f).nstime = s.nstime := rfl
@[simp] theorem State.modCore_nsRem (s : State) (core : Nat) (f : Core → Core) : (s.modCore core f).nsRem = s.nsRem := rfl
@[simp] theorem State.modCore_epochBit (s : State) (core : Nat) (f : Core → Core) : (s.modCore core f).epochBit = s.epochBit := rfl
@[simp] theorem State.modCore_timeOffset (s : State) (core : Nat) (f : Core → Core) : (s.modCore core f).timeOffset = s.timeOffset := rfl
@[simp] theorem State.modCore_timePort (s : State) (core : Nat) (f : Core → Core) : (s.modCore core f).timePort = s.timePort := rfl
@[simp] theorem State.modCore_timeState (s : State) (core : Nat) (f : Core → Core) : (s.modCore core f).timeState = s.timeState := rfl
@[simp] theorem State.modCore_slew (s : State) (core : Nat) (f : Core → Core) : (s.modCore core f).slew = s.slew := rfl
@[simp] theorem State.modCore_slewNs (s : State) (core : Nat) (f : Core → Core) : (s.modCore core f).slewNs = s.slewNs := rfl
@[simp] theorem State.modCore_lqbase (s : State) (core : Nat) (f : Core → Core) : (s.modCore core f).lqbase = s.lqbase := rfl
@[simp] theorem State.modCore_lqPtr (s : State) (core : Nat) (f : Core → Core) : (s.modCore core f).lqPtr = s.lqPtr := rfl
@[simp] theorem State.modCore_lqLast (s : State) (core : Nat) (f : Core → Core) : (s.modCore core f).lqLast = s.lqLast := rfl
@[simp] theorem State.modCore_ctxtbl (s : State) (core : Nat) (f : Core → Core) : (s.modCore core f).ctxtbl = s.ctxtbl := rfl
@[simp] theorem State.modCore_tlbVA (s : State) (core : Nat) (f : Core → Core) : (s.modCore core f).tlbVA = s.tlbVA := rfl
@[simp] theorem State.modCore_tlbCtx (s : State) (core : Nat) (f : Core → Core) : (s.modCore core f).tlbCtx = s.tlbCtx := rfl
@[simp] theorem State.modCore_tlbPages (s : State) (core : Nat) (f : Core → Core) : (s.modCore core f).tlbPages = s.tlbPages := rfl
@[simp] theorem State.modCore_tlbDone (s : State) (core : Nat) (f : Core → Core) : (s.modCore core f).tlbDone = s.tlbDone := rfl
@[simp] theorem State.modCore_frbase (s : State) (core : Nat) (f : Core → Core) : (s.modCore core f).frbase = s.frbase := rfl
@[simp] theorem State.modCore_frtail (s : State) (core : Nat) (f : Core → Core) : (s.modCore core f).frtail = s.frtail := rfl
@[simp] theorem State.modCore_frhead (s : State) (core : Nat) (f : Core → Core) : (s.modCore core f).frhead = s.frhead := rfl
@[simp] theorem State.modCore_frSeq (s : State) (core : Nat) (f : Core → Core) : (s.modCore core f).frSeq = s.frSeq := rfl
@[simp] theorem State.modCore_frRecs (s : State) (core : Nat) (f : Core → Core) : (s.modCore core f).frRecs = s.frRecs := rfl
@[simp] theorem State.modCore_pecmd (s : State) (core : Nat) (f : Core → Core) : (s.modCore core f).pecmd = s.pecmd := rfl
@[simp] theorem State.modCore_bringState (s : State) (core : Nat) (f : Core → Core) : (s.modCore core f).bringState = s.bringState := rfl
@[simp] theorem State.modCore_bringStep (s : State) (core : Nat) (f : Core → Core) : (s.modCore core f).bringStep = s.bringStep := rfl
@[simp] theorem State.modCore_bringFail (s : State) (core : Nat) (f : Core → Core) : (s.modCore core f).bringFail = s.bringFail := rfl
@[simp] theorem State.modCore_bringLog (s : State) (core : Nat) (f : Core → Core) : (s.modCore core f).bringLog = s.bringLog := rfl
@[simp] theorem State.modCore_firmware (s : State) (core : Nat) (f : Core → Core) : (s.modCore core f).firmware = s.firmware := rfl
@[simp] theorem State.modCore_regions (s : State) (core : Nat) (f : Core → Core) : (s.modCore core f).regions = s.regions := rfl
@[simp] theorem State.modCore_mapPend (s : State) (core : Nat) (f : Core → Core) : (s.modCore core f).mapPend = s.mapPend := rfl
@[simp] theorem State.modCore_mapRegion (s : State) (core : Nat) (f : Core → Core) : (s.modCore core f).mapRegion = s.mapRegion := rfl
@[simp] theorem State.modCore_mapWait (s : State) (core : Nat) (f : Core → Core) : (s.modCore core f).mapWait = s.mapWait := rfl
@[simp] theorem State.modCore_cxlEvents (s : State) (core : Nat) (f : Core → Core) : (s.modCore core f).cxlEvents = s.cxlEvents := rfl
@[simp] theorem State.modCore_ceTimes (s : State) (core : Nat) (f : Core → Core) : (s.modCore core f).ceTimes = s.ceTimes := rfl
@[simp] theorem State.modCore_memwin (s : State) (core : Nat) (f : Core → Core) : (s.modCore core f).memwin = s.memwin := rfl
@[simp] theorem State.modCore_tokcfg (s : State) (core : Nat) (f : Core → Core) : (s.modCore core f).tokcfg = s.tokcfg := rfl
@[simp] theorem State.modCore_mapthr (s : State) (core : Nat) (f : Core → Core) : (s.modCore core f).mapthr = s.mapthr := rfl
@[simp] theorem State.modCore_ptpcfg (s : State) (core : Nat) (f : Core → Core) : (s.modCore core f).ptpcfg = s.ptpcfg := rfl
@[simp] theorem State.modCore_rasUe (s : State) (core : Nat) (f : Core → Core) : (s.modCore core f).rasUe = s.rasUe := rfl
@[simp] theorem State.modCore_rasCe (s : State) (core : Nat) (f : Core → Core) : (s.modCore core f).rasCe = s.rasCe := rfl
@[simp] theorem State.modCore_cxl (s : State) (core : Nat) (f : Core → Core) : (s.modCore core f).cxl = s.cxl := rfl
@[simp] theorem State.modCore_cxlIo (s : State) (core : Nat) (f : Core → Core) : (s.modCore core f).cxlIo = s.cxlIo := rfl
@[simp] theorem State.modCore_sideband (s : State) (core : Nat) (f : Core → Core) : (s.modCore core f).sideband = s.sideband := rfl
@[simp] theorem State.modCore_links (s : State) (core : Nat) (f : Core → Core) : (s.modCore core f).links = s.links := rfl
@[simp] theorem State.modCore_keydata (s : State) (core : Nat) (f : Core → Core) : (s.modCore core f).keydata = s.keydata := rfl
@[simp] theorem State.modCore_keyStatus (s : State) (core : Nat) (f : Core → Core) : (s.modCore core f).keyStatus = s.keyStatus := rfl
@[simp] theorem State.modCore_keySlot (s : State) (core : Nat) (f : Core → Core) : (s.modCore core f).keySlot = s.keySlot := rfl
@[simp] theorem State.modCore_keyOp (s : State) (core : Nat) (f : Core → Core) : (s.modCore core f).keyOp = s.keyOp := rfl
@[simp] theorem State.modCore_keyDies (s : State) (core : Nat) (f : Core → Core) : (s.modCore core f).keyDies = s.keyDies := rfl
@[simp] theorem State.modCore_flash0 (s : State) (core : Nat) (f : Core → Core) : (s.modCore core f).flash0 = s.flash0 := rfl
@[simp] theorem State.modCore_flash1 (s : State) (core : Nat) (f : Core → Core) : (s.modCore core f).flash1 = s.flash1 := rfl
@[simp] theorem State.modCore_staged (s : State) (core : Nat) (f : Core → Core) : (s.modCore core f).staged = s.staged := rfl
@[simp] theorem State.modCore_imageSeq (s : State) (core : Nat) (f : Core → Core) : (s.modCore core f).imageSeq = s.imageSeq := rfl
@[simp] theorem State.modCore_flashActive (s : State) (core : Nat) (f : Core → Core) : (s.modCore core f).flashActive = s.flashActive := rfl
@[simp] theorem State.modCore_image (s : State) (core : Nat) (f : Core → Core) : (s.modCore core f).image = s.image := rfl
@[simp] theorem State.modCore_ports (s : State) (core : Nat) (f : Core → Core) : (s.modCore core f).ports = s.ports := rfl
@[simp] theorem State.modCore_mailbox (s : State) (core : Nat) (f : Core → Core) : (s.modCore core f).mailbox = s.mailbox := rfl
@[simp] theorem State.modCore_mailCode (s : State) (core : Nat) (f : Core → Core) : (s.modCore core f).mailCode = s.mailCode := rfl
@[simp] theorem State.modCore_hostReply (s : State) (core : Nat) (f : Core → Core) : (s.modCore core f).hostReply = s.hostReply := rfl
@[simp] theorem State.modCluster_groups (s : State) (die cl : Nat) (f : Cluster → Cluster) : (s.modCluster die cl f).groups = s.groups := rfl
@[simp] theorem State.modCluster_cur (s : State) (die cl : Nat) (f : Cluster → Cluster) : (s.modCluster die cl f).cur = s.cur := rfl
@[simp] theorem State.modCluster_agenda (s : State) (die cl : Nat) (f : Cluster → Cluster) : (s.modCluster die cl f).agenda = s.agenda := rfl
@[simp] theorem State.modCluster_input (s : State) (die cl : Nat) (f : Cluster → Cluster) : (s.modCluster die cl f).input = s.input := rfl
@[simp] theorem State.modCluster_freeCount (s : State) (die cl : Nat) (f : Cluster → Cluster) : (s.modCluster die cl f).freeCount = s.freeCount := rfl
@[simp] theorem State.modCluster_teams (s : State) (die cl : Nat) (f : Cluster → Cluster) : (s.modCluster die cl f).teams = s.teams := rfl
@[simp] theorem State.modCluster_grids (s : State) (die cl : Nat) (f : Cluster → Cluster) : (s.modCluster die cl f).grids = s.grids := rfl
@[simp] theorem State.modCluster_nextGrid (s : State) (die cl : Nat) (f : Cluster → Cluster) : (s.modCluster die cl f).nextGrid = s.nextGrid := rfl
@[simp] theorem State.modCluster_waiting (s : State) (die cl : Nat) (f : Cluster → Cluster) : (s.modCluster die cl f).waiting = s.waiting := rfl
@[simp] theorem State.modCluster_mem (s : State) (die cl : Nat) (f : Cluster → Cluster) : (s.modCluster die cl f).mem = s.mem := rfl
@[simp] theorem State.modCluster_hostMem (s : State) (die cl : Nat) (f : Cluster → Cluster) : (s.modCluster die cl f).hostMem = s.hostMem := rfl
@[simp] theorem State.modCluster_poison (s : State) (die cl : Nat) (f : Cluster → Cluster) : (s.modCluster die cl f).poison = s.poison := rfl
@[simp] theorem State.modCluster_cache (s : State) (die cl : Nat) (f : Cluster → Cluster) : (s.modCluster die cl f).cache = s.cache := rfl
@[simp] theorem State.modCluster_keyTags (s : State) (die cl : Nat) (f : Cluster → Cluster) : (s.modCluster die cl f).keyTags = s.keyTags := rfl
@[simp] theorem State.modCluster_keys (s : State) (die cl : Nat) (f : Cluster → Cluster) : (s.modCluster die cl f).keys = s.keys := rfl
@[simp] theorem State.modCluster_ctxs (s : State) (die cl : Nat) (f : Cluster → Cluster) : (s.modCluster die cl f).ctxs = s.ctxs := rfl
@[simp] theorem State.modCluster_cue (s : State) (die cl : Nat) (f : Cluster → Cluster) : (s.modCluster die cl f).cue = s.cue := rfl
@[simp] theorem State.modCluster_cores (s : State) (die cl : Nat) (f : Cluster → Cluster) : (s.modCluster die cl f).cores = s.cores := rfl
@[simp] theorem State.modCluster_rings (s : State) (die cl : Nat) (f : Cluster → Cluster) : (s.modCluster die cl f).rings = s.rings := rfl
@[simp] theorem State.modCluster_slates (s : State) (die cl : Nat) (f : Cluster → Cluster) : (s.modCluster die cl f).slates = s.slates := rfl
@[simp] theorem State.modCluster_slateSeq (s : State) (die cl : Nat) (f : Cluster → Cluster) : (s.modCluster die cl f).slateSeq = s.slateSeq := rfl
@[simp] theorem State.modCluster_slateLost (s : State) (die cl : Nat) (f : Cluster → Cluster) : (s.modCluster die cl f).slateLost = s.slateLost := rfl
@[simp] theorem State.modCluster_tf (s : State) (die cl : Nat) (f : Cluster → Cluster) : (s.modCluster die cl f).tf = s.tf := rfl
@[simp] theorem State.modCluster_origin (s : State) (die cl : Nat) (f : Cluster → Cluster) : (s.modCluster die cl f).origin = s.origin := rfl
@[simp] theorem State.modCluster_assembling (s : State) (die cl : Nat) (f : Cluster → Cluster) : (s.modCluster die cl f).assembling = s.assembling := rfl
@[simp] theorem State.modCluster_coldPending (s : State) (die cl : Nat) (f : Cluster → Cluster) : (s.modCluster die cl f).coldPending = s.coldPending := rfl
@[simp] theorem State.modCluster_reelen0 (s : State) (die cl : Nat) (f : Cluster → Cluster) : (s.modCluster die cl f).reelen0 = s.reelen0 := rfl
@[simp] theorem State.modCluster_reelen1 (s : State) (die cl : Nat) (f : Cluster → Cluster) : (s.modCluster die cl f).reelen1 = s.reelen1 := rfl
@[simp] theorem State.modCluster_cycle (s : State) (die cl : Nat) (f : Cluster → Cluster) : (s.modCluster die cl f).cycle = s.cycle := rfl
@[simp] theorem State.modCluster_nstime (s : State) (die cl : Nat) (f : Cluster → Cluster) : (s.modCluster die cl f).nstime = s.nstime := rfl
@[simp] theorem State.modCluster_nsRem (s : State) (die cl : Nat) (f : Cluster → Cluster) : (s.modCluster die cl f).nsRem = s.nsRem := rfl
@[simp] theorem State.modCluster_epochBit (s : State) (die cl : Nat) (f : Cluster → Cluster) : (s.modCluster die cl f).epochBit = s.epochBit := rfl
@[simp] theorem State.modCluster_timeOffset (s : State) (die cl : Nat) (f : Cluster → Cluster) : (s.modCluster die cl f).timeOffset = s.timeOffset := rfl
@[simp] theorem State.modCluster_timePort (s : State) (die cl : Nat) (f : Cluster → Cluster) : (s.modCluster die cl f).timePort = s.timePort := rfl
@[simp] theorem State.modCluster_timeState (s : State) (die cl : Nat) (f : Cluster → Cluster) : (s.modCluster die cl f).timeState = s.timeState := rfl
@[simp] theorem State.modCluster_slew (s : State) (die cl : Nat) (f : Cluster → Cluster) : (s.modCluster die cl f).slew = s.slew := rfl
@[simp] theorem State.modCluster_slewNs (s : State) (die cl : Nat) (f : Cluster → Cluster) : (s.modCluster die cl f).slewNs = s.slewNs := rfl
@[simp] theorem State.modCluster_lqbase (s : State) (die cl : Nat) (f : Cluster → Cluster) : (s.modCluster die cl f).lqbase = s.lqbase := rfl
@[simp] theorem State.modCluster_lqPtr (s : State) (die cl : Nat) (f : Cluster → Cluster) : (s.modCluster die cl f).lqPtr = s.lqPtr := rfl
@[simp] theorem State.modCluster_lqLast (s : State) (die cl : Nat) (f : Cluster → Cluster) : (s.modCluster die cl f).lqLast = s.lqLast := rfl
@[simp] theorem State.modCluster_ctxtbl (s : State) (die cl : Nat) (f : Cluster → Cluster) : (s.modCluster die cl f).ctxtbl = s.ctxtbl := rfl
@[simp] theorem State.modCluster_tlbVA (s : State) (die cl : Nat) (f : Cluster → Cluster) : (s.modCluster die cl f).tlbVA = s.tlbVA := rfl
@[simp] theorem State.modCluster_tlbCtx (s : State) (die cl : Nat) (f : Cluster → Cluster) : (s.modCluster die cl f).tlbCtx = s.tlbCtx := rfl
@[simp] theorem State.modCluster_tlbPages (s : State) (die cl : Nat) (f : Cluster → Cluster) : (s.modCluster die cl f).tlbPages = s.tlbPages := rfl
@[simp] theorem State.modCluster_tlbDone (s : State) (die cl : Nat) (f : Cluster → Cluster) : (s.modCluster die cl f).tlbDone = s.tlbDone := rfl
@[simp] theorem State.modCluster_frbase (s : State) (die cl : Nat) (f : Cluster → Cluster) : (s.modCluster die cl f).frbase = s.frbase := rfl
@[simp] theorem State.modCluster_frtail (s : State) (die cl : Nat) (f : Cluster → Cluster) : (s.modCluster die cl f).frtail = s.frtail := rfl
@[simp] theorem State.modCluster_frhead (s : State) (die cl : Nat) (f : Cluster → Cluster) : (s.modCluster die cl f).frhead = s.frhead := rfl
@[simp] theorem State.modCluster_frSeq (s : State) (die cl : Nat) (f : Cluster → Cluster) : (s.modCluster die cl f).frSeq = s.frSeq := rfl
@[simp] theorem State.modCluster_frRecs (s : State) (die cl : Nat) (f : Cluster → Cluster) : (s.modCluster die cl f).frRecs = s.frRecs := rfl
@[simp] theorem State.modCluster_pecmd (s : State) (die cl : Nat) (f : Cluster → Cluster) : (s.modCluster die cl f).pecmd = s.pecmd := rfl
@[simp] theorem State.modCluster_bringState (s : State) (die cl : Nat) (f : Cluster → Cluster) : (s.modCluster die cl f).bringState = s.bringState := rfl
@[simp] theorem State.modCluster_bringStep (s : State) (die cl : Nat) (f : Cluster → Cluster) : (s.modCluster die cl f).bringStep = s.bringStep := rfl
@[simp] theorem State.modCluster_bringFail (s : State) (die cl : Nat) (f : Cluster → Cluster) : (s.modCluster die cl f).bringFail = s.bringFail := rfl
@[simp] theorem State.modCluster_bringLog (s : State) (die cl : Nat) (f : Cluster → Cluster) : (s.modCluster die cl f).bringLog = s.bringLog := rfl
@[simp] theorem State.modCluster_firmware (s : State) (die cl : Nat) (f : Cluster → Cluster) : (s.modCluster die cl f).firmware = s.firmware := rfl
@[simp] theorem State.modCluster_regions (s : State) (die cl : Nat) (f : Cluster → Cluster) : (s.modCluster die cl f).regions = s.regions := rfl
@[simp] theorem State.modCluster_mapPend (s : State) (die cl : Nat) (f : Cluster → Cluster) : (s.modCluster die cl f).mapPend = s.mapPend := rfl
@[simp] theorem State.modCluster_mapRegion (s : State) (die cl : Nat) (f : Cluster → Cluster) : (s.modCluster die cl f).mapRegion = s.mapRegion := rfl
@[simp] theorem State.modCluster_mapWait (s : State) (die cl : Nat) (f : Cluster → Cluster) : (s.modCluster die cl f).mapWait = s.mapWait := rfl
@[simp] theorem State.modCluster_cxlEvents (s : State) (die cl : Nat) (f : Cluster → Cluster) : (s.modCluster die cl f).cxlEvents = s.cxlEvents := rfl
@[simp] theorem State.modCluster_ceTimes (s : State) (die cl : Nat) (f : Cluster → Cluster) : (s.modCluster die cl f).ceTimes = s.ceTimes := rfl
@[simp] theorem State.modCluster_memwin (s : State) (die cl : Nat) (f : Cluster → Cluster) : (s.modCluster die cl f).memwin = s.memwin := rfl
@[simp] theorem State.modCluster_tokcfg (s : State) (die cl : Nat) (f : Cluster → Cluster) : (s.modCluster die cl f).tokcfg = s.tokcfg := rfl
@[simp] theorem State.modCluster_mapthr (s : State) (die cl : Nat) (f : Cluster → Cluster) : (s.modCluster die cl f).mapthr = s.mapthr := rfl
@[simp] theorem State.modCluster_ptpcfg (s : State) (die cl : Nat) (f : Cluster → Cluster) : (s.modCluster die cl f).ptpcfg = s.ptpcfg := rfl
@[simp] theorem State.modCluster_rasUe (s : State) (die cl : Nat) (f : Cluster → Cluster) : (s.modCluster die cl f).rasUe = s.rasUe := rfl
@[simp] theorem State.modCluster_rasCe (s : State) (die cl : Nat) (f : Cluster → Cluster) : (s.modCluster die cl f).rasCe = s.rasCe := rfl
@[simp] theorem State.modCluster_cxl (s : State) (die cl : Nat) (f : Cluster → Cluster) : (s.modCluster die cl f).cxl = s.cxl := rfl
@[simp] theorem State.modCluster_cxlIo (s : State) (die cl : Nat) (f : Cluster → Cluster) : (s.modCluster die cl f).cxlIo = s.cxlIo := rfl
@[simp] theorem State.modCluster_sideband (s : State) (die cl : Nat) (f : Cluster → Cluster) : (s.modCluster die cl f).sideband = s.sideband := rfl
@[simp] theorem State.modCluster_links (s : State) (die cl : Nat) (f : Cluster → Cluster) : (s.modCluster die cl f).links = s.links := rfl
@[simp] theorem State.modCluster_keydata (s : State) (die cl : Nat) (f : Cluster → Cluster) : (s.modCluster die cl f).keydata = s.keydata := rfl
@[simp] theorem State.modCluster_keyStatus (s : State) (die cl : Nat) (f : Cluster → Cluster) : (s.modCluster die cl f).keyStatus = s.keyStatus := rfl
@[simp] theorem State.modCluster_keySlot (s : State) (die cl : Nat) (f : Cluster → Cluster) : (s.modCluster die cl f).keySlot = s.keySlot := rfl
@[simp] theorem State.modCluster_keyOp (s : State) (die cl : Nat) (f : Cluster → Cluster) : (s.modCluster die cl f).keyOp = s.keyOp := rfl
@[simp] theorem State.modCluster_keyDies (s : State) (die cl : Nat) (f : Cluster → Cluster) : (s.modCluster die cl f).keyDies = s.keyDies := rfl
@[simp] theorem State.modCluster_flash0 (s : State) (die cl : Nat) (f : Cluster → Cluster) : (s.modCluster die cl f).flash0 = s.flash0 := rfl
@[simp] theorem State.modCluster_flash1 (s : State) (die cl : Nat) (f : Cluster → Cluster) : (s.modCluster die cl f).flash1 = s.flash1 := rfl
@[simp] theorem State.modCluster_staged (s : State) (die cl : Nat) (f : Cluster → Cluster) : (s.modCluster die cl f).staged = s.staged := rfl
@[simp] theorem State.modCluster_imageSeq (s : State) (die cl : Nat) (f : Cluster → Cluster) : (s.modCluster die cl f).imageSeq = s.imageSeq := rfl
@[simp] theorem State.modCluster_flashActive (s : State) (die cl : Nat) (f : Cluster → Cluster) : (s.modCluster die cl f).flashActive = s.flashActive := rfl
@[simp] theorem State.modCluster_image (s : State) (die cl : Nat) (f : Cluster → Cluster) : (s.modCluster die cl f).image = s.image := rfl
@[simp] theorem State.modCluster_ports (s : State) (die cl : Nat) (f : Cluster → Cluster) : (s.modCluster die cl f).ports = s.ports := rfl
@[simp] theorem State.modCluster_mailbox (s : State) (die cl : Nat) (f : Cluster → Cluster) : (s.modCluster die cl f).mailbox = s.mailbox := rfl
@[simp] theorem State.modCluster_mailCode (s : State) (die cl : Nat) (f : Cluster → Cluster) : (s.modCluster die cl f).mailCode = s.mailCode := rfl
@[simp] theorem State.modCluster_hostReply (s : State) (die cl : Nat) (f : Cluster → Cluster) : (s.modCluster die cl f).hostReply = s.hostReply := rfl
@[simp] theorem State.draw_groups (s : State) : s.draw.2.groups = s.groups := rfl
@[simp] theorem State.draw_cur (s : State) : s.draw.2.cur = s.cur := rfl
@[simp] theorem State.draw_agenda (s : State) : s.draw.2.agenda = s.agenda := rfl
@[simp] theorem State.draw_input (s : State) : s.draw.2.input = s.input := rfl
@[simp] theorem State.draw_freeCount (s : State) : s.draw.2.freeCount = s.freeCount + 1 := rfl
@[simp] theorem State.draw_teams (s : State) : s.draw.2.teams = s.teams := rfl
@[simp] theorem State.draw_grids (s : State) : s.draw.2.grids = s.grids := rfl
@[simp] theorem State.draw_nextGrid (s : State) : s.draw.2.nextGrid = s.nextGrid := rfl
@[simp] theorem State.draw_waiting (s : State) : s.draw.2.waiting = s.waiting := rfl
@[simp] theorem State.draw_mem (s : State) : s.draw.2.mem = s.mem := rfl
@[simp] theorem State.draw_hostMem (s : State) : s.draw.2.hostMem = s.hostMem := rfl
@[simp] theorem State.draw_poison (s : State) : s.draw.2.poison = s.poison := rfl
@[simp] theorem State.draw_cache (s : State) : s.draw.2.cache = s.cache := rfl
@[simp] theorem State.draw_keyTags (s : State) : s.draw.2.keyTags = s.keyTags := rfl
@[simp] theorem State.draw_keys (s : State) : s.draw.2.keys = s.keys := rfl
@[simp] theorem State.draw_ctxs (s : State) : s.draw.2.ctxs = s.ctxs := rfl
@[simp] theorem State.draw_cue (s : State) : s.draw.2.cue = s.cue := rfl
@[simp] theorem State.draw_cores (s : State) : s.draw.2.cores = s.cores := rfl
@[simp] theorem State.draw_dies (s : State) : s.draw.2.dies = s.dies := rfl
@[simp] theorem State.draw_rings (s : State) : s.draw.2.rings = s.rings := rfl
@[simp] theorem State.draw_slates (s : State) : s.draw.2.slates = s.slates := rfl
@[simp] theorem State.draw_slateSeq (s : State) : s.draw.2.slateSeq = s.slateSeq := rfl
@[simp] theorem State.draw_slateLost (s : State) : s.draw.2.slateLost = s.slateLost := rfl
@[simp] theorem State.draw_tf (s : State) : s.draw.2.tf = s.tf := rfl
@[simp] theorem State.draw_origin (s : State) : s.draw.2.origin = s.origin := rfl
@[simp] theorem State.draw_assembling (s : State) : s.draw.2.assembling = s.assembling := rfl
@[simp] theorem State.draw_coldPending (s : State) : s.draw.2.coldPending = s.coldPending := rfl
@[simp] theorem State.draw_reelen0 (s : State) : s.draw.2.reelen0 = s.reelen0 := rfl
@[simp] theorem State.draw_reelen1 (s : State) : s.draw.2.reelen1 = s.reelen1 := rfl
@[simp] theorem State.draw_cycle (s : State) : s.draw.2.cycle = s.cycle := rfl
@[simp] theorem State.draw_nstime (s : State) : s.draw.2.nstime = s.nstime := rfl
@[simp] theorem State.draw_nsRem (s : State) : s.draw.2.nsRem = s.nsRem := rfl
@[simp] theorem State.draw_epochBit (s : State) : s.draw.2.epochBit = s.epochBit := rfl
@[simp] theorem State.draw_timeOffset (s : State) : s.draw.2.timeOffset = s.timeOffset := rfl
@[simp] theorem State.draw_timePort (s : State) : s.draw.2.timePort = s.timePort := rfl
@[simp] theorem State.draw_timeState (s : State) : s.draw.2.timeState = s.timeState := rfl
@[simp] theorem State.draw_slew (s : State) : s.draw.2.slew = s.slew := rfl
@[simp] theorem State.draw_slewNs (s : State) : s.draw.2.slewNs = s.slewNs := rfl
@[simp] theorem State.draw_lqbase (s : State) : s.draw.2.lqbase = s.lqbase := rfl
@[simp] theorem State.draw_lqPtr (s : State) : s.draw.2.lqPtr = s.lqPtr := rfl
@[simp] theorem State.draw_lqLast (s : State) : s.draw.2.lqLast = s.lqLast := rfl
@[simp] theorem State.draw_ctxtbl (s : State) : s.draw.2.ctxtbl = s.ctxtbl := rfl
@[simp] theorem State.draw_tlbVA (s : State) : s.draw.2.tlbVA = s.tlbVA := rfl
@[simp] theorem State.draw_tlbCtx (s : State) : s.draw.2.tlbCtx = s.tlbCtx := rfl
@[simp] theorem State.draw_tlbPages (s : State) : s.draw.2.tlbPages = s.tlbPages := rfl
@[simp] theorem State.draw_tlbDone (s : State) : s.draw.2.tlbDone = s.tlbDone := rfl
@[simp] theorem State.draw_frbase (s : State) : s.draw.2.frbase = s.frbase := rfl
@[simp] theorem State.draw_frtail (s : State) : s.draw.2.frtail = s.frtail := rfl
@[simp] theorem State.draw_frhead (s : State) : s.draw.2.frhead = s.frhead := rfl
@[simp] theorem State.draw_frSeq (s : State) : s.draw.2.frSeq = s.frSeq := rfl
@[simp] theorem State.draw_frRecs (s : State) : s.draw.2.frRecs = s.frRecs := rfl
@[simp] theorem State.draw_pecmd (s : State) : s.draw.2.pecmd = s.pecmd := rfl
@[simp] theorem State.draw_bringState (s : State) : s.draw.2.bringState = s.bringState := rfl
@[simp] theorem State.draw_bringStep (s : State) : s.draw.2.bringStep = s.bringStep := rfl
@[simp] theorem State.draw_bringFail (s : State) : s.draw.2.bringFail = s.bringFail := rfl
@[simp] theorem State.draw_bringLog (s : State) : s.draw.2.bringLog = s.bringLog := rfl
@[simp] theorem State.draw_firmware (s : State) : s.draw.2.firmware = s.firmware := rfl
@[simp] theorem State.draw_regions (s : State) : s.draw.2.regions = s.regions := rfl
@[simp] theorem State.draw_mapPend (s : State) : s.draw.2.mapPend = s.mapPend := rfl
@[simp] theorem State.draw_mapRegion (s : State) : s.draw.2.mapRegion = s.mapRegion := rfl
@[simp] theorem State.draw_mapWait (s : State) : s.draw.2.mapWait = s.mapWait := rfl
@[simp] theorem State.draw_cxlEvents (s : State) : s.draw.2.cxlEvents = s.cxlEvents := rfl
@[simp] theorem State.draw_ceTimes (s : State) : s.draw.2.ceTimes = s.ceTimes := rfl
@[simp] theorem State.draw_memwin (s : State) : s.draw.2.memwin = s.memwin := rfl
@[simp] theorem State.draw_tokcfg (s : State) : s.draw.2.tokcfg = s.tokcfg := rfl
@[simp] theorem State.draw_mapthr (s : State) : s.draw.2.mapthr = s.mapthr := rfl
@[simp] theorem State.draw_ptpcfg (s : State) : s.draw.2.ptpcfg = s.ptpcfg := rfl
@[simp] theorem State.draw_rasUe (s : State) : s.draw.2.rasUe = s.rasUe := rfl
@[simp] theorem State.draw_rasCe (s : State) : s.draw.2.rasCe = s.rasCe := rfl
@[simp] theorem State.draw_cxl (s : State) : s.draw.2.cxl = s.cxl := rfl
@[simp] theorem State.draw_cxlIo (s : State) : s.draw.2.cxlIo = s.cxlIo := rfl
@[simp] theorem State.draw_sideband (s : State) : s.draw.2.sideband = s.sideband := rfl
@[simp] theorem State.draw_links (s : State) : s.draw.2.links = s.links := rfl
@[simp] theorem State.draw_keydata (s : State) : s.draw.2.keydata = s.keydata := rfl
@[simp] theorem State.draw_keyStatus (s : State) : s.draw.2.keyStatus = s.keyStatus := rfl
@[simp] theorem State.draw_keySlot (s : State) : s.draw.2.keySlot = s.keySlot := rfl
@[simp] theorem State.draw_keyOp (s : State) : s.draw.2.keyOp = s.keyOp := rfl
@[simp] theorem State.draw_keyDies (s : State) : s.draw.2.keyDies = s.keyDies := rfl
@[simp] theorem State.draw_flash0 (s : State) : s.draw.2.flash0 = s.flash0 := rfl
@[simp] theorem State.draw_flash1 (s : State) : s.draw.2.flash1 = s.flash1 := rfl
@[simp] theorem State.draw_staged (s : State) : s.draw.2.staged = s.staged := rfl
@[simp] theorem State.draw_imageSeq (s : State) : s.draw.2.imageSeq = s.imageSeq := rfl
@[simp] theorem State.draw_flashActive (s : State) : s.draw.2.flashActive = s.flashActive := rfl
@[simp] theorem State.draw_image (s : State) : s.draw.2.image = s.image := rfl
@[simp] theorem State.draw_ports (s : State) : s.draw.2.ports = s.ports := rfl
@[simp] theorem State.draw_mailbox (s : State) : s.draw.2.mailbox = s.mailbox := rfl
@[simp] theorem State.draw_mailCode (s : State) : s.draw.2.mailCode = s.mailCode := rfl
@[simp] theorem State.draw_hostReply (s : State) : s.draw.2.hostReply = s.hostReply := rfl
@[simp] theorem State.draw_fst (s : State) : s.draw.1 = s.freeCount := rfl
@[simp] theorem Group.setV_live (g : Group) (k : Nat) (lanes : Mask) (vals : List W32) (marks : Mask) (tag : Nat) : (g.setV k lanes vals marks tag).live = g.live := rfl
@[simp] theorem Group.setV_grid (g : Group) (k : Nat) (lanes : Mask) (vals : List W32) (marks : Mask) (tag : Nat) : (g.setV k lanes vals marks tag).grid = g.grid := rfl
@[simp] theorem Group.setV_team (g : Group) (k : Nat) (lanes : Mask) (vals : List W32) (marks : Mask) (tag : Nat) : (g.setV k lanes vals marks tag).team = g.team := rfl
@[simp] theorem Group.setV_idx (g : Group) (k : Nat) (lanes : Mask) (vals : List W32) (marks : Mask) (tag : Nat) : (g.setV k lanes vals marks tag).idx = g.idx := rfl
@[simp] theorem Group.setV_nGroups (g : Group) (k : Nat) (lanes : Mask) (vals : List W32) (marks : Mask) (tag : Nat) : (g.setV k lanes vals marks tag).nGroups = g.nGroups := rfl
@[simp] theorem Group.setV_ctx (g : Group) (k : Nat) (lanes : Mask) (vals : List W32) (marks : Mask) (tag : Nat) : (g.setV k lanes vals marks tag).ctx = g.ctx := rfl
@[simp] theorem Group.setV_core (g : Group) (k : Nat) (lanes : Mask) (vals : List W32) (marks : Mask) (tag : Nat) : (g.setV k lanes vals marks tag).core = g.core := rfl
@[simp] theorem Group.setV_quad (g : Group) (k : Nat) (lanes : Mask) (vals : List W32) (marks : Mask) (tag : Nat) : (g.setV k lanes vals marks tag).quad = g.quad := rfl
@[simp] theorem Group.setV_slot (g : Group) (k : Nat) (lanes : Mask) (vals : List W32) (marks : Mask) (tag : Nat) : (g.setV k lanes vals marks tag).slot = g.slot := rfl
@[simp] theorem Group.setV_half (g : Group) (k : Nat) (lanes : Mask) (vals : List W32) (marks : Mask) (tag : Nat) : (g.setV k lanes vals marks tag).half = g.half := rfl
@[simp] theorem Group.setV_width (g : Group) (k : Nat) (lanes : Mask) (vals : List W32) (marks : Mask) (tag : Nat) : (g.setV k lanes vals marks tag).width = g.width := rfl
@[simp] theorem Group.setV_pc (g : Group) (k : Nat) (lanes : Mask) (vals : List W32) (marks : Mask) (tag : Nat) : (g.setV k lanes vals marks tag).pc = g.pc := rfl
@[simp] theorem Group.setV_exec (g : Group) (k : Nat) (lanes : Mask) (vals : List W32) (marks : Mask) (tag : Nat) : (g.setV k lanes vals marks tag).exec = g.exec := rfl
@[simp] theorem Group.setV_parked (g : Group) (k : Nat) (lanes : Mask) (vals : List W32) (marks : Mask) (tag : Nat) : (g.setV k lanes vals marks tag).parked = g.parked := rfl
@[simp] theorem Group.setV_served (g : Group) (k : Nat) (lanes : Mask) (vals : List W32) (marks : Mask) (tag : Nat) : (g.setV k lanes vals marks tag).served = g.served := rfl
@[simp] theorem Group.setV_stored (g : Group) (k : Nat) (lanes : Mask) (vals : List W32) (marks : Mask) (tag : Nat) : (g.setV k lanes vals marks tag).stored = g.stored := rfl
@[simp] theorem Group.setV_exited (g : Group) (k : Nat) (lanes : Mask) (vals : List W32) (marks : Mask) (tag : Nat) : (g.setV k lanes vals marks tag).exited = g.exited := rfl
@[simp] theorem Group.setV_lanePC (g : Group) (k : Nat) (lanes : Mask) (vals : List W32) (marks : Mask) (tag : Nat) : (g.setV k lanes vals marks tag).lanePC = g.lanePC := rfl
@[simp] theorem Group.setV_yc (g : Group) (k : Nat) (lanes : Mask) (vals : List W32) (marks : Mask) (tag : Nat) : (g.setV k lanes vals marks tag).yc = g.yc := rfl
@[simp] theorem Group.setV_sregs (g : Group) (k : Nat) (lanes : Mask) (vals : List W32) (marks : Mask) (tag : Nat) : (g.setV k lanes vals marks tag).sregs = g.sregs := rfl
@[simp] theorem Group.setV_preds (g : Group) (k : Nat) (lanes : Mask) (vals : List W32) (marks : Mask) (tag : Nat) : (g.setV k lanes vals marks tag).preds = g.preds := rfl
@[simp] theorem Group.setV_accSlots (g : Group) (k : Nat) (lanes : Mask) (vals : List W32) (marks : Mask) (tag : Nat) : (g.setV k lanes vals marks tag).accSlots = g.accSlots := rfl
@[simp] theorem Group.setV_acc (g : Group) (k : Nat) (lanes : Mask) (vals : List W32) (marks : Mask) (tag : Nat) : (g.setV k lanes vals marks tag).acc = g.acc := rfl
@[simp] theorem Group.setV_window (g : Group) (k : Nat) (lanes : Mask) (vals : List W32) (marks : Mask) (tag : Nat) : (g.setV k lanes vals marks tag).window = g.window := rfl
@[simp] theorem Group.setV_chain (g : Group) (k : Nat) (lanes : Mask) (vals : List W32) (marks : Mask) (tag : Nat) : (g.setV k lanes vals marks tag).chain = g.chain := rfl
@[simp] theorem Group.setV_ops (g : Group) (k : Nat) (lanes : Mask) (vals : List W32) (marks : Mask) (tag : Nat) : (g.setV k lanes vals marks tag).ops = g.ops := rfl
@[simp] theorem Group.setV_opSeq (g : Group) (k : Nat) (lanes : Mask) (vals : List W32) (marks : Mask) (tag : Nat) : (g.setV k lanes vals marks tag).opSeq = g.opSeq := rfl
@[simp] theorem Group.setV_due (g : Group) (k : Nat) (lanes : Mask) (vals : List W32) (marks : Mask) (tag : Nat) : (g.setV k lanes vals marks tag).due = g.due := rfl
@[simp] theorem Group.setV_prio (g : Group) (k : Nat) (lanes : Mask) (vals : List W32) (marks : Mask) (tag : Nat) : (g.setV k lanes vals marks tag).prio = g.prio := rfl
@[simp] theorem Group.setV_cdepth (g : Group) (k : Nat) (lanes : Mask) (vals : List W32) (marks : Mask) (tag : Nat) : (g.setV k lanes vals marks tag).cdepth = g.cdepth := rfl
@[simp] theorem Group.setV_ntthr (g : Group) (k : Nat) (lanes : Mask) (vals : List W32) (marks : Mask) (tag : Nat) : (g.setV k lanes vals marks tag).ntthr = g.ntthr := rfl
@[simp] theorem Group.setV_pform (g : Group) (k : Nat) (lanes : Mask) (vals : List W32) (marks : Mask) (tag : Nat) : (g.setV k lanes vals marks tag).pform = g.pform := rfl
@[simp] theorem Group.setV_strict (g : Group) (k : Nat) (lanes : Mask) (vals : List W32) (marks : Mask) (tag : Nat) : (g.setV k lanes vals marks tag).strict = g.strict := rfl
@[simp] theorem Group.setV_xbase (g : Group) (k : Nat) (lanes : Mask) (vals : List W32) (marks : Mask) (tag : Nat) : (g.setV k lanes vals marks tag).xbase = g.xbase := rfl
@[simp] theorem Group.setV_xcause (g : Group) (k : Nat) (lanes : Mask) (vals : List W32) (marks : Mask) (tag : Nat) : (g.setV k lanes vals marks tag).xcause = g.xcause := rfl
@[simp] theorem Group.setV_xval (g : Group) (k : Nat) (lanes : Mask) (vals : List W32) (marks : Mask) (tag : Nat) : (g.setV k lanes vals marks tag).xval = g.xval := rfl
@[simp] theorem Group.setV_xpc (g : Group) (k : Nat) (lanes : Mask) (vals : List W32) (marks : Mask) (tag : Nat) : (g.setV k lanes vals marks tag).xpc = g.xpc := rfl
@[simp] theorem Group.setV_xrpc (g : Group) (k : Nat) (lanes : Mask) (vals : List W32) (marks : Mask) (tag : Nat) : (g.setV k lanes vals marks tag).xrpc = g.xrpc := rfl
@[simp] theorem Group.setV_trap (g : Group) (k : Nat) (lanes : Mask) (vals : List W32) (marks : Mask) (tag : Nat) : (g.setV k lanes vals marks tag).trap = g.trap := rfl
@[simp] theorem Group.setV_inchain (g : Group) (k : Nat) (lanes : Mask) (vals : List W32) (marks : Mask) (tag : Nat) : (g.setV k lanes vals marks tag).inchain = g.inchain := rfl
@[simp] theorem Group.setV_chpos (g : Group) (k : Nat) (lanes : Mask) (vals : List W32) (marks : Mask) (tag : Nat) : (g.setV k lanes vals marks tag).chpos = g.chpos := rfl
@[simp] theorem Group.setV_tokwait (g : Group) (k : Nat) (lanes : Mask) (vals : List W32) (marks : Mask) (tag : Nat) : (g.setV k lanes vals marks tag).tokwait = g.tokwait := rfl
@[simp] theorem Group.setV_spwEn (g : Group) (k : Nat) (lanes : Mask) (vals : List W32) (marks : Mask) (tag : Nat) : (g.setV k lanes vals marks tag).spwEn = g.spwEn := rfl
@[simp] theorem Group.setV_spwBase (g : Group) (k : Nat) (lanes : Mask) (vals : List W32) (marks : Mask) (tag : Nat) : (g.setV k lanes vals marks tag).spwBase = g.spwBase := rfl
@[simp] theorem Group.setV_role (g : Group) (k : Nat) (lanes : Mask) (vals : List W32) (marks : Mask) (tag : Nat) : (g.setV k lanes vals marks tag).role = g.role := rfl
@[simp] theorem Group.setV_pmc (g : Group) (k : Nat) (lanes : Mask) (vals : List W32) (marks : Mask) (tag : Nat) : (g.setV k lanes vals marks tag).pmc = g.pmc := rfl
@[simp] theorem Group.setV_pmsel (g : Group) (k : Nat) (lanes : Mask) (vals : List W32) (marks : Mask) (tag : Nat) : (g.setV k lanes vals marks tag).pmsel = g.pmsel := rfl
@[simp] theorem Group.setV_pmovf (g : Group) (k : Nat) (lanes : Mask) (vals : List W32) (marks : Mask) (tag : Nat) : (g.setV k lanes vals marks tag).pmovf = g.pmovf := rfl
@[simp] theorem Group.setV_pmctl (g : Group) (k : Nat) (lanes : Mask) (vals : List W32) (marks : Mask) (tag : Nat) : (g.setV k lanes vals marks tag).pmctl = g.pmctl := rfl
@[simp] theorem Group.setV_arr (g : Group) (k : Nat) (lanes : Mask) (vals : List W32) (marks : Mask) (tag : Nat) : (g.setV k lanes vals marks tag).arr = g.arr := rfl
@[simp] theorem Group.setV_inline (g : Group) (k : Nat) (lanes : Mask) (vals : List W32) (marks : Mask) (tag : Nat) : (g.setV k lanes vals marks tag).inline = g.inline := rfl
@[simp] theorem Group.setV_task (g : Group) (k : Nat) (lanes : Mask) (vals : List W32) (marks : Mask) (tag : Nat) : (g.setV k lanes vals marks tag).task = g.task := rfl
@[simp] theorem Group.setV_cueLeft (g : Group) (k : Nat) (lanes : Mask) (vals : List W32) (marks : Mask) (tag : Nat) : (g.setV k lanes vals marks tag).cueLeft = g.cueLeft := rfl
@[simp] theorem Group.setV_wait (g : Group) (k : Nat) (lanes : Mask) (vals : List W32) (marks : Mask) (tag : Nat) : (g.setV k lanes vals marks tag).wait = g.wait := rfl
@[simp] theorem Group.setV_since (g : Group) (k : Nat) (lanes : Mask) (vals : List W32) (marks : Mask) (tag : Nat) : (g.setV k lanes vals marks tag).since = g.since := rfl
@[simp] theorem Group.setV_stalled (g : Group) (k : Nat) (lanes : Mask) (vals : List W32) (marks : Mask) (tag : Nat) : (g.setV k lanes vals marks tag).stalled = g.stalled := rfl
@[simp] theorem Group.setV_fetched (g : Group) (k : Nat) (lanes : Mask) (vals : List W32) (marks : Mask) (tag : Nat) : (g.setV k lanes vals marks tag).fetched = g.fetched := rfl
@[simp] theorem Group.setV_gone (g : Group) (k : Nat) (lanes : Mask) (vals : List W32) (marks : Mask) (tag : Nat) : (g.setV k lanes vals marks tag).gone = g.gone := rfl
@[simp] theorem Group.setV_stopped (g : Group) (k : Nat) (lanes : Mask) (vals : List W32) (marks : Mask) (tag : Nat) : (g.setV k lanes vals marks tag).stopped = g.stopped := rfl
@[simp] theorem Group.setV_redo (g : Group) (k : Nat) (lanes : Mask) (vals : List W32) (marks : Mask) (tag : Nat) : (g.setV k lanes vals marks tag).redo = g.redo := rfl
@[simp] theorem Group.setV_pend (g : Group) (k : Nat) (lanes : Mask) (vals : List W32) (marks : Mask) (tag : Nat) : (g.setV k lanes vals marks tag).pend = g.pend := rfl
@[simp] theorem Group.setV_early (g : Group) (k : Nat) (lanes : Mask) (vals : List W32) (marks : Mask) (tag : Nat) : (g.setV k lanes vals marks tag).early = g.early := rfl
@[simp] theorem Group.setP_live (g : Group) (k : Nat) (lanes vals : Mask) : (g.setP k lanes vals).live = g.live := rfl
@[simp] theorem Group.setP_grid (g : Group) (k : Nat) (lanes vals : Mask) : (g.setP k lanes vals).grid = g.grid := rfl
@[simp] theorem Group.setP_team (g : Group) (k : Nat) (lanes vals : Mask) : (g.setP k lanes vals).team = g.team := rfl
@[simp] theorem Group.setP_idx (g : Group) (k : Nat) (lanes vals : Mask) : (g.setP k lanes vals).idx = g.idx := rfl
@[simp] theorem Group.setP_nGroups (g : Group) (k : Nat) (lanes vals : Mask) : (g.setP k lanes vals).nGroups = g.nGroups := rfl
@[simp] theorem Group.setP_ctx (g : Group) (k : Nat) (lanes vals : Mask) : (g.setP k lanes vals).ctx = g.ctx := rfl
@[simp] theorem Group.setP_core (g : Group) (k : Nat) (lanes vals : Mask) : (g.setP k lanes vals).core = g.core := rfl
@[simp] theorem Group.setP_quad (g : Group) (k : Nat) (lanes vals : Mask) : (g.setP k lanes vals).quad = g.quad := rfl
@[simp] theorem Group.setP_slot (g : Group) (k : Nat) (lanes vals : Mask) : (g.setP k lanes vals).slot = g.slot := rfl
@[simp] theorem Group.setP_half (g : Group) (k : Nat) (lanes vals : Mask) : (g.setP k lanes vals).half = g.half := rfl
@[simp] theorem Group.setP_width (g : Group) (k : Nat) (lanes vals : Mask) : (g.setP k lanes vals).width = g.width := rfl
@[simp] theorem Group.setP_pc (g : Group) (k : Nat) (lanes vals : Mask) : (g.setP k lanes vals).pc = g.pc := rfl
@[simp] theorem Group.setP_exec (g : Group) (k : Nat) (lanes vals : Mask) : (g.setP k lanes vals).exec = g.exec := rfl
@[simp] theorem Group.setP_parked (g : Group) (k : Nat) (lanes vals : Mask) : (g.setP k lanes vals).parked = g.parked := rfl
@[simp] theorem Group.setP_served (g : Group) (k : Nat) (lanes vals : Mask) : (g.setP k lanes vals).served = g.served := rfl
@[simp] theorem Group.setP_stored (g : Group) (k : Nat) (lanes vals : Mask) : (g.setP k lanes vals).stored = g.stored := rfl
@[simp] theorem Group.setP_exited (g : Group) (k : Nat) (lanes vals : Mask) : (g.setP k lanes vals).exited = g.exited := rfl
@[simp] theorem Group.setP_lanePC (g : Group) (k : Nat) (lanes vals : Mask) : (g.setP k lanes vals).lanePC = g.lanePC := rfl
@[simp] theorem Group.setP_yc (g : Group) (k : Nat) (lanes vals : Mask) : (g.setP k lanes vals).yc = g.yc := rfl
@[simp] theorem Group.setP_sregs (g : Group) (k : Nat) (lanes vals : Mask) : (g.setP k lanes vals).sregs = g.sregs := rfl
@[simp] theorem Group.setP_vregs (g : Group) (k : Nat) (lanes vals : Mask) : (g.setP k lanes vals).vregs = g.vregs := rfl
@[simp] theorem Group.setP_accSlots (g : Group) (k : Nat) (lanes vals : Mask) : (g.setP k lanes vals).accSlots = g.accSlots := rfl
@[simp] theorem Group.setP_acc (g : Group) (k : Nat) (lanes vals : Mask) : (g.setP k lanes vals).acc = g.acc := rfl
@[simp] theorem Group.setP_window (g : Group) (k : Nat) (lanes vals : Mask) : (g.setP k lanes vals).window = g.window := rfl
@[simp] theorem Group.setP_chain (g : Group) (k : Nat) (lanes vals : Mask) : (g.setP k lanes vals).chain = g.chain := rfl
@[simp] theorem Group.setP_ops (g : Group) (k : Nat) (lanes vals : Mask) : (g.setP k lanes vals).ops = g.ops := rfl
@[simp] theorem Group.setP_opSeq (g : Group) (k : Nat) (lanes vals : Mask) : (g.setP k lanes vals).opSeq = g.opSeq := rfl
@[simp] theorem Group.setP_due (g : Group) (k : Nat) (lanes vals : Mask) : (g.setP k lanes vals).due = g.due := rfl
@[simp] theorem Group.setP_prio (g : Group) (k : Nat) (lanes vals : Mask) : (g.setP k lanes vals).prio = g.prio := rfl
@[simp] theorem Group.setP_cdepth (g : Group) (k : Nat) (lanes vals : Mask) : (g.setP k lanes vals).cdepth = g.cdepth := rfl
@[simp] theorem Group.setP_ntthr (g : Group) (k : Nat) (lanes vals : Mask) : (g.setP k lanes vals).ntthr = g.ntthr := rfl
@[simp] theorem Group.setP_pform (g : Group) (k : Nat) (lanes vals : Mask) : (g.setP k lanes vals).pform = g.pform := rfl
@[simp] theorem Group.setP_strict (g : Group) (k : Nat) (lanes vals : Mask) : (g.setP k lanes vals).strict = g.strict := rfl
@[simp] theorem Group.setP_xbase (g : Group) (k : Nat) (lanes vals : Mask) : (g.setP k lanes vals).xbase = g.xbase := rfl
@[simp] theorem Group.setP_xcause (g : Group) (k : Nat) (lanes vals : Mask) : (g.setP k lanes vals).xcause = g.xcause := rfl
@[simp] theorem Group.setP_xval (g : Group) (k : Nat) (lanes vals : Mask) : (g.setP k lanes vals).xval = g.xval := rfl
@[simp] theorem Group.setP_xpc (g : Group) (k : Nat) (lanes vals : Mask) : (g.setP k lanes vals).xpc = g.xpc := rfl
@[simp] theorem Group.setP_xrpc (g : Group) (k : Nat) (lanes vals : Mask) : (g.setP k lanes vals).xrpc = g.xrpc := rfl
@[simp] theorem Group.setP_trap (g : Group) (k : Nat) (lanes vals : Mask) : (g.setP k lanes vals).trap = g.trap := rfl
@[simp] theorem Group.setP_inchain (g : Group) (k : Nat) (lanes vals : Mask) : (g.setP k lanes vals).inchain = g.inchain := rfl
@[simp] theorem Group.setP_chpos (g : Group) (k : Nat) (lanes vals : Mask) : (g.setP k lanes vals).chpos = g.chpos := rfl
@[simp] theorem Group.setP_tokwait (g : Group) (k : Nat) (lanes vals : Mask) : (g.setP k lanes vals).tokwait = g.tokwait := rfl
@[simp] theorem Group.setP_spwEn (g : Group) (k : Nat) (lanes vals : Mask) : (g.setP k lanes vals).spwEn = g.spwEn := rfl
@[simp] theorem Group.setP_spwBase (g : Group) (k : Nat) (lanes vals : Mask) : (g.setP k lanes vals).spwBase = g.spwBase := rfl
@[simp] theorem Group.setP_role (g : Group) (k : Nat) (lanes vals : Mask) : (g.setP k lanes vals).role = g.role := rfl
@[simp] theorem Group.setP_pmc (g : Group) (k : Nat) (lanes vals : Mask) : (g.setP k lanes vals).pmc = g.pmc := rfl
@[simp] theorem Group.setP_pmsel (g : Group) (k : Nat) (lanes vals : Mask) : (g.setP k lanes vals).pmsel = g.pmsel := rfl
@[simp] theorem Group.setP_pmovf (g : Group) (k : Nat) (lanes vals : Mask) : (g.setP k lanes vals).pmovf = g.pmovf := rfl
@[simp] theorem Group.setP_pmctl (g : Group) (k : Nat) (lanes vals : Mask) : (g.setP k lanes vals).pmctl = g.pmctl := rfl
@[simp] theorem Group.setP_arr (g : Group) (k : Nat) (lanes vals : Mask) : (g.setP k lanes vals).arr = g.arr := rfl
@[simp] theorem Group.setP_inline (g : Group) (k : Nat) (lanes vals : Mask) : (g.setP k lanes vals).inline = g.inline := rfl
@[simp] theorem Group.setP_task (g : Group) (k : Nat) (lanes vals : Mask) : (g.setP k lanes vals).task = g.task := rfl
@[simp] theorem Group.setP_cueLeft (g : Group) (k : Nat) (lanes vals : Mask) : (g.setP k lanes vals).cueLeft = g.cueLeft := rfl
@[simp] theorem Group.setP_wait (g : Group) (k : Nat) (lanes vals : Mask) : (g.setP k lanes vals).wait = g.wait := rfl
@[simp] theorem Group.setP_since (g : Group) (k : Nat) (lanes vals : Mask) : (g.setP k lanes vals).since = g.since := rfl
@[simp] theorem Group.setP_stalled (g : Group) (k : Nat) (lanes vals : Mask) : (g.setP k lanes vals).stalled = g.stalled := rfl
@[simp] theorem Group.setP_fetched (g : Group) (k : Nat) (lanes vals : Mask) : (g.setP k lanes vals).fetched = g.fetched := rfl
@[simp] theorem Group.setP_gone (g : Group) (k : Nat) (lanes vals : Mask) : (g.setP k lanes vals).gone = g.gone := rfl
@[simp] theorem Group.setP_stopped (g : Group) (k : Nat) (lanes vals : Mask) : (g.setP k lanes vals).stopped = g.stopped := rfl
@[simp] theorem Group.setP_redo (g : Group) (k : Nat) (lanes vals : Mask) : (g.setP k lanes vals).redo = g.redo := rfl
@[simp] theorem Group.setP_pend (g : Group) (k : Nat) (lanes vals : Mask) : (g.setP k lanes vals).pend = g.pend := rfl
@[simp] theorem Group.setP_early (g : Group) (k : Nat) (lanes vals : Mask) : (g.setP k lanes vals).early = g.early := rfl

@[simp] theorem Group.count_live (g : Group) (ks : List Nat) (event n : Nat) : (g.count ks event n).live = g.live := rfl
@[simp] theorem Group.count_grid (g : Group) (ks : List Nat) (event n : Nat) : (g.count ks event n).grid = g.grid := rfl
@[simp] theorem Group.count_team (g : Group) (ks : List Nat) (event n : Nat) : (g.count ks event n).team = g.team := rfl
@[simp] theorem Group.count_idx (g : Group) (ks : List Nat) (event n : Nat) : (g.count ks event n).idx = g.idx := rfl
@[simp] theorem Group.count_nGroups (g : Group) (ks : List Nat) (event n : Nat) : (g.count ks event n).nGroups = g.nGroups := rfl
@[simp] theorem Group.count_ctx (g : Group) (ks : List Nat) (event n : Nat) : (g.count ks event n).ctx = g.ctx := rfl
@[simp] theorem Group.count_core (g : Group) (ks : List Nat) (event n : Nat) : (g.count ks event n).core = g.core := rfl
@[simp] theorem Group.count_quad (g : Group) (ks : List Nat) (event n : Nat) : (g.count ks event n).quad = g.quad := rfl
@[simp] theorem Group.count_slot (g : Group) (ks : List Nat) (event n : Nat) : (g.count ks event n).slot = g.slot := rfl
@[simp] theorem Group.count_half (g : Group) (ks : List Nat) (event n : Nat) : (g.count ks event n).half = g.half := rfl
@[simp] theorem Group.count_width (g : Group) (ks : List Nat) (event n : Nat) : (g.count ks event n).width = g.width := rfl
@[simp] theorem Group.count_pc (g : Group) (ks : List Nat) (event n : Nat) : (g.count ks event n).pc = g.pc := rfl
@[simp] theorem Group.count_exec (g : Group) (ks : List Nat) (event n : Nat) : (g.count ks event n).exec = g.exec := rfl
@[simp] theorem Group.count_parked (g : Group) (ks : List Nat) (event n : Nat) : (g.count ks event n).parked = g.parked := rfl
@[simp] theorem Group.count_served (g : Group) (ks : List Nat) (event n : Nat) : (g.count ks event n).served = g.served := rfl
@[simp] theorem Group.count_stored (g : Group) (ks : List Nat) (event n : Nat) : (g.count ks event n).stored = g.stored := rfl
@[simp] theorem Group.count_exited (g : Group) (ks : List Nat) (event n : Nat) : (g.count ks event n).exited = g.exited := rfl
@[simp] theorem Group.count_lanePC (g : Group) (ks : List Nat) (event n : Nat) : (g.count ks event n).lanePC = g.lanePC := rfl
@[simp] theorem Group.count_yc (g : Group) (ks : List Nat) (event n : Nat) : (g.count ks event n).yc = g.yc := rfl
@[simp] theorem Group.count_sregs (g : Group) (ks : List Nat) (event n : Nat) : (g.count ks event n).sregs = g.sregs := rfl
@[simp] theorem Group.count_vregs (g : Group) (ks : List Nat) (event n : Nat) : (g.count ks event n).vregs = g.vregs := rfl
@[simp] theorem Group.count_preds (g : Group) (ks : List Nat) (event n : Nat) : (g.count ks event n).preds = g.preds := rfl
@[simp] theorem Group.count_accSlots (g : Group) (ks : List Nat) (event n : Nat) : (g.count ks event n).accSlots = g.accSlots := rfl
@[simp] theorem Group.count_acc (g : Group) (ks : List Nat) (event n : Nat) : (g.count ks event n).acc = g.acc := rfl
@[simp] theorem Group.count_window (g : Group) (ks : List Nat) (event n : Nat) : (g.count ks event n).window = g.window := rfl
@[simp] theorem Group.count_chain (g : Group) (ks : List Nat) (event n : Nat) : (g.count ks event n).chain = g.chain := rfl
@[simp] theorem Group.count_ops (g : Group) (ks : List Nat) (event n : Nat) : (g.count ks event n).ops = g.ops := rfl
@[simp] theorem Group.count_opSeq (g : Group) (ks : List Nat) (event n : Nat) : (g.count ks event n).opSeq = g.opSeq := rfl
@[simp] theorem Group.count_due (g : Group) (ks : List Nat) (event n : Nat) : (g.count ks event n).due = g.due := rfl
@[simp] theorem Group.count_prio (g : Group) (ks : List Nat) (event n : Nat) : (g.count ks event n).prio = g.prio := rfl
@[simp] theorem Group.count_cdepth (g : Group) (ks : List Nat) (event n : Nat) : (g.count ks event n).cdepth = g.cdepth := rfl
@[simp] theorem Group.count_ntthr (g : Group) (ks : List Nat) (event n : Nat) : (g.count ks event n).ntthr = g.ntthr := rfl
@[simp] theorem Group.count_pform (g : Group) (ks : List Nat) (event n : Nat) : (g.count ks event n).pform = g.pform := rfl
@[simp] theorem Group.count_strict (g : Group) (ks : List Nat) (event n : Nat) : (g.count ks event n).strict = g.strict := rfl
@[simp] theorem Group.count_xbase (g : Group) (ks : List Nat) (event n : Nat) : (g.count ks event n).xbase = g.xbase := rfl
@[simp] theorem Group.count_xcause (g : Group) (ks : List Nat) (event n : Nat) : (g.count ks event n).xcause = g.xcause := rfl
@[simp] theorem Group.count_xval (g : Group) (ks : List Nat) (event n : Nat) : (g.count ks event n).xval = g.xval := rfl
@[simp] theorem Group.count_xpc (g : Group) (ks : List Nat) (event n : Nat) : (g.count ks event n).xpc = g.xpc := rfl
@[simp] theorem Group.count_xrpc (g : Group) (ks : List Nat) (event n : Nat) : (g.count ks event n).xrpc = g.xrpc := rfl
@[simp] theorem Group.count_trap (g : Group) (ks : List Nat) (event n : Nat) : (g.count ks event n).trap = g.trap := rfl
@[simp] theorem Group.count_inchain (g : Group) (ks : List Nat) (event n : Nat) : (g.count ks event n).inchain = g.inchain := rfl
@[simp] theorem Group.count_chpos (g : Group) (ks : List Nat) (event n : Nat) : (g.count ks event n).chpos = g.chpos := rfl
@[simp] theorem Group.count_chfirst (g : Group) (ks : List Nat) (event n : Nat) : (g.count ks event n).chfirst = g.chfirst := rfl
@[simp] theorem Group.count_tokwait (g : Group) (ks : List Nat) (event n : Nat) : (g.count ks event n).tokwait = g.tokwait := rfl
@[simp] theorem Group.count_spwEn (g : Group) (ks : List Nat) (event n : Nat) : (g.count ks event n).spwEn = g.spwEn := rfl
@[simp] theorem Group.count_spwBase (g : Group) (ks : List Nat) (event n : Nat) : (g.count ks event n).spwBase = g.spwBase := rfl
@[simp] theorem Group.count_role (g : Group) (ks : List Nat) (event n : Nat) : (g.count ks event n).role = g.role := rfl
@[simp] theorem Group.count_pmc (g : Group) (ks : List Nat) (event n : Nat) : (g.count ks event n).pmc = g.pmc := rfl
@[simp] theorem Group.count_pmsel (g : Group) (ks : List Nat) (event n : Nat) : (g.count ks event n).pmsel = g.pmsel := rfl
@[simp] theorem Group.count_pmovf (g : Group) (ks : List Nat) (event n : Nat) : (g.count ks event n).pmovf = g.pmovf := rfl
@[simp] theorem Group.count_pmctl (g : Group) (ks : List Nat) (event n : Nat) : (g.count ks event n).pmctl = g.pmctl := rfl
@[simp] theorem Group.count_arr (g : Group) (ks : List Nat) (event n : Nat) : (g.count ks event n).arr = g.arr := rfl
@[simp] theorem Group.count_inline (g : Group) (ks : List Nat) (event n : Nat) : (g.count ks event n).inline = g.inline := rfl
@[simp] theorem Group.count_task (g : Group) (ks : List Nat) (event n : Nat) : (g.count ks event n).task = g.task := rfl
@[simp] theorem Group.count_cueLeft (g : Group) (ks : List Nat) (event n : Nat) : (g.count ks event n).cueLeft = g.cueLeft := rfl
@[simp] theorem Group.count_wait (g : Group) (ks : List Nat) (event n : Nat) : (g.count ks event n).wait = g.wait := rfl
@[simp] theorem Group.count_since (g : Group) (ks : List Nat) (event n : Nat) : (g.count ks event n).since = g.since := rfl
@[simp] theorem Group.count_stalled (g : Group) (ks : List Nat) (event n : Nat) : (g.count ks event n).stalled = g.stalled := rfl
@[simp] theorem Group.count_fetched (g : Group) (ks : List Nat) (event n : Nat) : (g.count ks event n).fetched = g.fetched := rfl
@[simp] theorem Group.count_gone (g : Group) (ks : List Nat) (event n : Nat) : (g.count ks event n).gone = g.gone := rfl
@[simp] theorem Group.count_stopped (g : Group) (ks : List Nat) (event n : Nat) : (g.count ks event n).stopped = g.stopped := rfl
@[simp] theorem Group.count_redo (g : Group) (ks : List Nat) (event n : Nat) : (g.count ks event n).redo = g.redo := rfl
@[simp] theorem Group.count_early (g : Group) (ks : List Nat) (event n : Nat) : (g.count ks event n).early = g.early := rfl
@[simp] theorem Group.count_pend (g : Group) (ks : List Nat) (event n : Nat) :
    (g.count ks event n).pend = g.pend ++ ks.map fun k => (k, event, n) := rfl

@[simp] theorem State.countEv_cur (s : State) (gi event n : Nat) : (s.countEv gi event n).cur = s.cur := rfl
@[simp] theorem State.countEv_agenda (s : State) (gi event n : Nat) : (s.countEv gi event n).agenda = s.agenda := rfl
@[simp] theorem State.countEv_input (s : State) (gi event n : Nat) : (s.countEv gi event n).input = s.input := rfl
@[simp] theorem State.countEv_freeCount (s : State) (gi event n : Nat) : (s.countEv gi event n).freeCount = s.freeCount := rfl
@[simp] theorem State.countEv_teams (s : State) (gi event n : Nat) : (s.countEv gi event n).teams = s.teams := rfl
@[simp] theorem State.countEv_grids (s : State) (gi event n : Nat) : (s.countEv gi event n).grids = s.grids := rfl
@[simp] theorem State.countEv_nextGrid (s : State) (gi event n : Nat) : (s.countEv gi event n).nextGrid = s.nextGrid := rfl
@[simp] theorem State.countEv_waiting (s : State) (gi event n : Nat) : (s.countEv gi event n).waiting = s.waiting := rfl
@[simp] theorem State.countEv_mem (s : State) (gi event n : Nat) : (s.countEv gi event n).mem = s.mem := rfl
@[simp] theorem State.countEv_hostMem (s : State) (gi event n : Nat) : (s.countEv gi event n).hostMem = s.hostMem := rfl
@[simp] theorem State.countEv_poison (s : State) (gi event n : Nat) : (s.countEv gi event n).poison = s.poison := rfl
@[simp] theorem State.countEv_cache (s : State) (gi event n : Nat) : (s.countEv gi event n).cache = s.cache := rfl
@[simp] theorem State.countEv_keyTags (s : State) (gi event n : Nat) : (s.countEv gi event n).keyTags = s.keyTags := rfl
@[simp] theorem State.countEv_keys (s : State) (gi event n : Nat) : (s.countEv gi event n).keys = s.keys := rfl
@[simp] theorem State.countEv_ctxs (s : State) (gi event n : Nat) : (s.countEv gi event n).ctxs = s.ctxs := rfl
@[simp] theorem State.countEv_cue (s : State) (gi event n : Nat) : (s.countEv gi event n).cue = s.cue := rfl
@[simp] theorem State.countEv_cores (s : State) (gi event n : Nat) : (s.countEv gi event n).cores = s.cores := rfl
@[simp] theorem State.countEv_dies (s : State) (gi event n : Nat) : (s.countEv gi event n).dies = s.dies := rfl
@[simp] theorem State.countEv_rings (s : State) (gi event n : Nat) : (s.countEv gi event n).rings = s.rings := rfl
@[simp] theorem State.countEv_slates (s : State) (gi event n : Nat) : (s.countEv gi event n).slates = s.slates := rfl
@[simp] theorem State.countEv_slateSeq (s : State) (gi event n : Nat) : (s.countEv gi event n).slateSeq = s.slateSeq := rfl
@[simp] theorem State.countEv_slateLost (s : State) (gi event n : Nat) : (s.countEv gi event n).slateLost = s.slateLost := rfl
@[simp] theorem State.countEv_tf (s : State) (gi event n : Nat) : (s.countEv gi event n).tf = s.tf := rfl
@[simp] theorem State.countEv_origin (s : State) (gi event n : Nat) : (s.countEv gi event n).origin = s.origin := rfl
@[simp] theorem State.countEv_assembling (s : State) (gi event n : Nat) : (s.countEv gi event n).assembling = s.assembling := rfl
@[simp] theorem State.countEv_coldPending (s : State) (gi event n : Nat) : (s.countEv gi event n).coldPending = s.coldPending := rfl
@[simp] theorem State.countEv_reelen0 (s : State) (gi event n : Nat) : (s.countEv gi event n).reelen0 = s.reelen0 := rfl
@[simp] theorem State.countEv_reelen1 (s : State) (gi event n : Nat) : (s.countEv gi event n).reelen1 = s.reelen1 := rfl
@[simp] theorem State.countEv_cycle (s : State) (gi event n : Nat) : (s.countEv gi event n).cycle = s.cycle := rfl
@[simp] theorem State.countEv_nstime (s : State) (gi event n : Nat) : (s.countEv gi event n).nstime = s.nstime := rfl
@[simp] theorem State.countEv_nsRem (s : State) (gi event n : Nat) : (s.countEv gi event n).nsRem = s.nsRem := rfl
@[simp] theorem State.countEv_epochBit (s : State) (gi event n : Nat) : (s.countEv gi event n).epochBit = s.epochBit := rfl
@[simp] theorem State.countEv_timeOffset (s : State) (gi event n : Nat) : (s.countEv gi event n).timeOffset = s.timeOffset := rfl
@[simp] theorem State.countEv_timePort (s : State) (gi event n : Nat) : (s.countEv gi event n).timePort = s.timePort := rfl
@[simp] theorem State.countEv_timeState (s : State) (gi event n : Nat) : (s.countEv gi event n).timeState = s.timeState := rfl
@[simp] theorem State.countEv_slew (s : State) (gi event n : Nat) : (s.countEv gi event n).slew = s.slew := rfl
@[simp] theorem State.countEv_slewNs (s : State) (gi event n : Nat) : (s.countEv gi event n).slewNs = s.slewNs := rfl
@[simp] theorem State.countEv_lqbase (s : State) (gi event n : Nat) : (s.countEv gi event n).lqbase = s.lqbase := rfl
@[simp] theorem State.countEv_lqPtr (s : State) (gi event n : Nat) : (s.countEv gi event n).lqPtr = s.lqPtr := rfl
@[simp] theorem State.countEv_lqLast (s : State) (gi event n : Nat) : (s.countEv gi event n).lqLast = s.lqLast := rfl
@[simp] theorem State.countEv_ctxtbl (s : State) (gi event n : Nat) : (s.countEv gi event n).ctxtbl = s.ctxtbl := rfl
@[simp] theorem State.countEv_tlbVA (s : State) (gi event n : Nat) : (s.countEv gi event n).tlbVA = s.tlbVA := rfl
@[simp] theorem State.countEv_tlbCtx (s : State) (gi event n : Nat) : (s.countEv gi event n).tlbCtx = s.tlbCtx := rfl
@[simp] theorem State.countEv_tlbPages (s : State) (gi event n : Nat) : (s.countEv gi event n).tlbPages = s.tlbPages := rfl
@[simp] theorem State.countEv_tlbDone (s : State) (gi event n : Nat) : (s.countEv gi event n).tlbDone = s.tlbDone := rfl
@[simp] theorem State.countEv_frbase (s : State) (gi event n : Nat) : (s.countEv gi event n).frbase = s.frbase := rfl
@[simp] theorem State.countEv_frtail (s : State) (gi event n : Nat) : (s.countEv gi event n).frtail = s.frtail := rfl
@[simp] theorem State.countEv_frhead (s : State) (gi event n : Nat) : (s.countEv gi event n).frhead = s.frhead := rfl
@[simp] theorem State.countEv_frSeq (s : State) (gi event n : Nat) : (s.countEv gi event n).frSeq = s.frSeq := rfl
@[simp] theorem State.countEv_frRecs (s : State) (gi event n : Nat) : (s.countEv gi event n).frRecs = s.frRecs := rfl
@[simp] theorem State.countEv_pecmd (s : State) (gi event n : Nat) : (s.countEv gi event n).pecmd = s.pecmd := rfl
@[simp] theorem State.countEv_bringState (s : State) (gi event n : Nat) : (s.countEv gi event n).bringState = s.bringState := rfl
@[simp] theorem State.countEv_bringStep (s : State) (gi event n : Nat) : (s.countEv gi event n).bringStep = s.bringStep := rfl
@[simp] theorem State.countEv_bringFail (s : State) (gi event n : Nat) : (s.countEv gi event n).bringFail = s.bringFail := rfl
@[simp] theorem State.countEv_bringLog (s : State) (gi event n : Nat) : (s.countEv gi event n).bringLog = s.bringLog := rfl
@[simp] theorem State.countEv_firmware (s : State) (gi event n : Nat) : (s.countEv gi event n).firmware = s.firmware := rfl
@[simp] theorem State.countEv_regions (s : State) (gi event n : Nat) : (s.countEv gi event n).regions = s.regions := rfl
@[simp] theorem State.countEv_mapPend (s : State) (gi event n : Nat) : (s.countEv gi event n).mapPend = s.mapPend := rfl
@[simp] theorem State.countEv_mapRegion (s : State) (gi event n : Nat) : (s.countEv gi event n).mapRegion = s.mapRegion := rfl
@[simp] theorem State.countEv_mapWait (s : State) (gi event n : Nat) : (s.countEv gi event n).mapWait = s.mapWait := rfl
@[simp] theorem State.countEv_cxlEvents (s : State) (gi event n : Nat) : (s.countEv gi event n).cxlEvents = s.cxlEvents := rfl
@[simp] theorem State.countEv_ceTimes (s : State) (gi event n : Nat) : (s.countEv gi event n).ceTimes = s.ceTimes := rfl
@[simp] theorem State.countEv_memwin (s : State) (gi event n : Nat) : (s.countEv gi event n).memwin = s.memwin := rfl
@[simp] theorem State.countEv_tokcfg (s : State) (gi event n : Nat) : (s.countEv gi event n).tokcfg = s.tokcfg := rfl
@[simp] theorem State.countEv_mapthr (s : State) (gi event n : Nat) : (s.countEv gi event n).mapthr = s.mapthr := rfl
@[simp] theorem State.countEv_ptpcfg (s : State) (gi event n : Nat) : (s.countEv gi event n).ptpcfg = s.ptpcfg := rfl
@[simp] theorem State.countEv_rasUe (s : State) (gi event n : Nat) : (s.countEv gi event n).rasUe = s.rasUe := rfl
@[simp] theorem State.countEv_rasCe (s : State) (gi event n : Nat) : (s.countEv gi event n).rasCe = s.rasCe := rfl
@[simp] theorem State.countEv_cxl (s : State) (gi event n : Nat) : (s.countEv gi event n).cxl = s.cxl := rfl
@[simp] theorem State.countEv_cxlIo (s : State) (gi event n : Nat) : (s.countEv gi event n).cxlIo = s.cxlIo := rfl
@[simp] theorem State.countEv_sideband (s : State) (gi event n : Nat) : (s.countEv gi event n).sideband = s.sideband := rfl
@[simp] theorem State.countEv_links (s : State) (gi event n : Nat) : (s.countEv gi event n).links = s.links := rfl
@[simp] theorem State.countEv_keydata (s : State) (gi event n : Nat) : (s.countEv gi event n).keydata = s.keydata := rfl
@[simp] theorem State.countEv_keyStatus (s : State) (gi event n : Nat) : (s.countEv gi event n).keyStatus = s.keyStatus := rfl
@[simp] theorem State.countEv_keySlot (s : State) (gi event n : Nat) : (s.countEv gi event n).keySlot = s.keySlot := rfl
@[simp] theorem State.countEv_keyOp (s : State) (gi event n : Nat) : (s.countEv gi event n).keyOp = s.keyOp := rfl
@[simp] theorem State.countEv_keyDies (s : State) (gi event n : Nat) : (s.countEv gi event n).keyDies = s.keyDies := rfl
@[simp] theorem State.countEv_flash0 (s : State) (gi event n : Nat) : (s.countEv gi event n).flash0 = s.flash0 := rfl
@[simp] theorem State.countEv_flash1 (s : State) (gi event n : Nat) : (s.countEv gi event n).flash1 = s.flash1 := rfl
@[simp] theorem State.countEv_staged (s : State) (gi event n : Nat) : (s.countEv gi event n).staged = s.staged := rfl
@[simp] theorem State.countEv_imageSeq (s : State) (gi event n : Nat) : (s.countEv gi event n).imageSeq = s.imageSeq := rfl
@[simp] theorem State.countEv_flashActive (s : State) (gi event n : Nat) : (s.countEv gi event n).flashActive = s.flashActive := rfl
@[simp] theorem State.countEv_image (s : State) (gi event n : Nat) : (s.countEv gi event n).image = s.image := rfl
@[simp] theorem State.countEv_ports (s : State) (gi event n : Nat) : (s.countEv gi event n).ports = s.ports := rfl
@[simp] theorem State.countEv_mailbox (s : State) (gi event n : Nat) : (s.countEv gi event n).mailbox = s.mailbox := rfl
@[simp] theorem State.countEv_mailCode (s : State) (gi event n : Nat) : (s.countEv gi event n).mailCode = s.mailCode := rfl
@[simp] theorem State.countEv_hostReply (s : State) (gi event n : Nat) : (s.countEv gi event n).hostReply = s.hostReply := rfl

end Sys2Proof.Machine
end

