-- ==== Sys2Proof/Laws/Issue.lean ====
section
/-! SUPPORT. Everything that the issue of a form, a trap and an access of lanes can do. -/

namespace Sys2Proof.Machine

variable {opc sub : Nat} {e : Enc} {s : State} {g : Group} {f : Iss → State → Eff}

/-- Without a group the issue of a form stops. -/
theorem issue_noGroup (h : s.groups[s.cur]? = none) : issue opc sub e s f = .fault .noGroup := by
  simp [issue, h]

/-- A form that a reason stalls changes nothing. -/
theorem issue_stalled (h : s.groups[s.cur]? = some g) (hs : stallWhy (s.iss g opc sub e) s ≠ 0) : issue opc sub e s f = .next s := by
  unfold issue
  rw [h]
  exact if_pos (by simpa [State.iss] using hs)

/-- An engine fault that is due is taken before the form has its effect. -/
theorem issue_due {d : Due} {ds : List Due} (h : s.groups[s.cur]? = some g) (hs : stallWhy (s.iss g opc sub e) s = 0)
    (hd : g.due = d :: ds) : issue opc sub e s f = .next ((s.deliverDue s.cur e.ch d).issuedBy (s.iss g opc sub e) none) := by
  unfold issue
  rw [h]
  simp only [hd]
  exact if_neg (by simpa [State.iss] using hs)

/-- What the issue of a form comes to once it is neither stalled nor has a fault due. -/
theorem issue_issued (h : s.groups[s.cur]? = some g) (hi : (s.iss g opc sub e).issues s = true) :
    issue opc sub e s f = .next (match issued (s.iss g opc sub e) s f with
      | .trap s' code reason xval => (s.iss g opc sub e).trapped s' code reason xval
      | .again s' reason budgets => (Eff.again s' reason budgets).apply (s.iss g opc sub e)
      | r => (r.apply (s.iss g opc sub e)).issuedBy (s.iss g opc sub e) (s.iss g opc sub e).pmcWritten) := by
  simp only [Iss.issues, Bool.and_eq_true, decide_eq_true_eq, List.isEmpty_iff] at hi
  have hd : g.due = [] := hi.2
  unfold issue
  rw [h]
  simp only [hd]
  rw [if_neg (by simpa [State.iss] using hi.1)]
  change (match issued (s.iss g opc sub e) s f with
    | .trap s' code reason xval => _
    | .again s' reason budgets => _
    | r => _) = _
  cases issued (s.iss g opc sub e) s f <;> rfl

/-- An illegal form traps with its first reason, whatever its guard. -/
theorem issue_illegal {c : Nat × Nat} (h : s.groups[s.cur]? = some g) (hi : (s.iss g opc sub e).issues s = true)
    (hw : firstWhy (issueWhy (s.iss g opc sub e) s) = some c) :
    issue opc sub e s f = .next ((s.iss g opc sub e).trapped s 0x01 c.1 (BitVec.ofNat 64 (c.1 + 256 * c.2))) := by
  rw [issue_issued h hi]
  simp only [issued, hw]

/-- A legal form that no lane runs only advances, CUEPOP apart. -/
theorem issue_idle (h : s.groups[s.cur]? = some g) (ho : opc ≠ 0xD1) (hi : (s.iss g opc sub e).issues s = true)
    (hl : (s.iss g opc sub e).legal s = true) (hr : (s.iss g opc sub e).runs = false) :
    issue opc sub e s f = .next ((s.iss g opc sub e).completed s (s.iss g opc sub e).idleOut) := by
  rw [issue_issued h hi]
  simp only [Iss.legal, Option.isNone_iff_eq_none] at hl
  have ho' : (s.iss g opc sub e).opc ≠ 0xD1 := ho
  simp only [issued, hl, hr, if_neg ho']
  rfl

/-- A CUEPOP that no lane runs advances and ends the group's task (spec 05 R145). -/
theorem issue_idle_cuepop (h : s.groups[s.cur]? = some g) (hi : (s.iss g 0xD1 sub e).issues s = true)
    (hl : (s.iss g 0xD1 sub e).legal s = true) (hr : (s.iss g 0xD1 sub e).runs = false) :
    issue 0xD1 sub e s f = .next ((s.iss g 0xD1 sub e).completed (s.modGroup s.cur fun g => { g with task := false })
      (s.iss g 0xD1 sub e).idleOut) := by
  rw [issue_issued h hi]
  simp only [Iss.legal, Option.isNone_iff_eq_none] at hl
  simp only [issued, hl, hr]
  rfl

/-- A marked source traps UNINIT. -/
theorem issue_uninit {r : Nat} (h : s.groups[s.cur]? = some g) (hi : (s.iss g opc sub e).issues s = true)
    (hl : (s.iss g opc sub e).legal s = true) (hr : (s.iss g opc sub e).runs = true) (hu : uninit (s.iss g opc sub e) = some r) :
    issue opc sub e s f = .next ((s.iss g opc sub e).trapped s 0x02 0 (BitVec.ofNat 64 r)) := by
  rw [issue_issued h hi]
  simp only [Iss.legal, Option.isNone_iff_eq_none] at hl
  simp only [issued, hl, hr, hu, Bool.not_true, Bool.false_eq_true, if_false]

/-- A form that is clear has its effect. -/
theorem issued_clear (hc : (s.iss g opc sub e).clear s = true) : issued (s.iss g opc sub e) s f = f (s.iss g opc sub e) s := by
  simp only [Iss.clear, Iss.legal, Bool.and_eq_true, Option.isNone_iff_eq_none] at hc
  simp only [issued, hc.1.1.2, hc.1.2, hc.2, Bool.not_true, Bool.false_eq_true, if_false]

/-- A form that is clear and completes at the next address. -/
theorem issue_done {s' : State} {out : LatchVal} (h : s.groups[s.cur]? = some g) (hc : (s.iss g opc sub e).clear s = true)
    (hf : f (s.iss g opc sub e) s = .done s' out) : issue opc sub e s f = .next ((s.iss g opc sub e).completed s' out) := by
  have hi : (s.iss g opc sub e).issues s = true := by
    simp only [Iss.clear, Bool.and_eq_true] at hc
    exact hc.1.1.1
  rw [issue_issued h hi, issued_clear hc, hf]
  rfl

/-- A form that is clear and sets the group's PC. -/
theorem issue_jump {s' : State} (h : s.groups[s.cur]? = some g) (hc : (s.iss g opc sub e).clear s = true)
    (hf : f (s.iss g opc sub e) s = .jump s') : issue opc sub e s f = .next ((s.iss g opc sub e).left s') := by
  have hi : (s.iss g opc sub e).issues s = true := by
    simp only [Iss.clear, Bool.and_eq_true] at hc
    exact hc.1.1.1
  rw [issue_issued h hi, issued_clear hc, hf]
  rfl

/-- A form that is clear and at which the group waits. -/
theorem issue_stay {s' : State} (h : s.groups[s.cur]? = some g) (hc : (s.iss g opc sub e).clear s = true)
    (hf : f (s.iss g opc sub e) s = .stay s') : issue opc sub e s f = .next ((s.iss g opc sub e).stays s') := by
  have hi : (s.iss g opc sub e).issues s = true := by
    simp only [Iss.clear, Bool.and_eq_true] at hc
    exact hc.1.1.1
  rw [issue_issued h hi, issued_clear hc, hf]
  rfl

/-- A form that is clear and whose effect is a trap. -/
theorem issue_trap {s' : State} {code reason : Nat} {xval : W64} (h : s.groups[s.cur]? = some g)
    (hc : (s.iss g opc sub e).clear s = true) (hf : f (s.iss g opc sub e) s = .trap s' code reason xval) :
    issue opc sub e s f = .next ((s.iss g opc sub e).trapped s' code reason xval) := by
  have hi : (s.iss g opc sub e).issues s = true := by
    simp only [Iss.clear, Bool.and_eq_true] at hc
    exact hc.1.1.1
  rw [issue_issued h hi, issued_clear hc, hf]

/-- The issue of a form stops only where the state names no group. -/
theorem issue_answers (h : s.groups[s.cur]? = some g) : ∃ t, issue opc sub e s f = .next t := by
  unfold issue
  rw [h]
  simp only
  split
  · exact ⟨_, rfl⟩
  · split
    · exact ⟨_, rfl⟩
    · split <;> exact ⟨_, rfl⟩

/-- A form that is clear and delivers a result, with the result written in any other way. -/
theorem issue_deliver {wide : Iss → Bool} {val : Iss → State → Nat → W64} {r : Nat → W64} (h : s.groups[s.cur]? = some g)
    (hc : (s.iss g opc sub e).clear s = true) (hr : ∀ i, val (s.iss g opc sub e) s i = r i) :
    issue opc sub e s (pure1 fun x s => x.deliver (wide x) (val x s))
      = .next ((s.iss g opc sub e).delivered s (wide (s.iss g opc sub e)) r) := by
  rw [issue_done h hc rfl, show r = val (s.iss g opc sub e) s from (funext hr).symm]
  rfl

/-- A form whose only effect is on its group and the latches. -/
theorem pure1_eq (p : Iss → State → Group × LatchVal) (x : Iss) (s : State) :
    pure1 p x s = .done (s.setGroup x.gi (p x s).1) (p x s).2 := rfl

/-- A form that is clear and has to be attempted again. -/
theorem issue_again {s' : State} {reason : Nat} {budgets : List (Nat × Nat)} (h : s.groups[s.cur]? = some g) (hc : (s.iss g opc sub e).clear s = true)
    (hf : f (s.iss g opc sub e) s = .again s' reason budgets) :
    issue opc sub e s f = .next ((Eff.again s' reason budgets).apply (s.iss g opc sub e)) := by
  have hi : (s.iss g opc sub e).issues s = true := by
    simp only [Iss.clear, Bool.and_eq_true] at hc
    exact hc.1.1.1
  rw [issue_issued h hi, issued_clear hc, hf]

/-- Requests of the demand class are charged to it, or wait while it is held. -/
theorem demand_cases (s : State) (rs : List (Nat × Nat)) (c : State → Eff) :
    (s.held 0 rs = true ∧ s.demand rs c = .again s 17 (rs.map fun r => (0, homeDie r.1))) ∨ (s.held 0 rs = false ∧ s.demand rs c = c (s.charge 0 rs)) := by
  unfold State.demand
  cases s.held 0 rs <;> simp

/-- Everything that the accesses of lanes can do: a misaligned address traps before any access, a fault has its effect, and else
the continuation runs at the places of all of them once their requests are not held. -/
theorem access_cases (x : Iss) (s : State) (k : AccK) (sp : Space) (n : Nat) (as : List (Nat × W64))
    (c : State → List (Nat × Place) → Eff) :
    (∃ a, misaligned as n = some a ∧ access x s k sp n as c = .trap s 0x03 0 a)
    ∨ (misaligned as n = none ∧ ∃ s1 er, (s.settlePoison x.gi k).resolveAll x.gi x.g k sp n as = (s1, .error er) ∧ access x s k sp n as c = er.eff s1 x.g k)
    ∨ (misaligned as n = none ∧ ∃ s1 ps, (s.settlePoison x.gi k).resolveAll x.gi x.g k sp n as = (s1, .ok ps)
        ∧ access x s k sp n as c = s1.demand (devPlaces (ps.map Prod.snd) n) fun s2 => c s2 ps) := by
  unfold access
  cases hm : misaligned as n with
  | some a => exact Or.inl ⟨a, rfl, rfl⟩
  | none =>
    rcases hr : (s.settlePoison x.gi k).resolveAll x.gi x.g k sp n as with ⟨s1, er | ps⟩
    · exact Or.inr (Or.inl ⟨rfl, s1, er, rfl, rfl⟩)
    · exact Or.inr (Or.inr ⟨rfl, s1, ps, rfl, rfl⟩)

end Sys2Proof.Machine
end

