-- ==== Sys2Proof/Laws/PerInstr.lean ====
section
/-! SUPPORT. What holds of every instruction, a lemma for each constructor. -/

namespace Sys2Proof.Laws.Selects

/-- The instruction is the one that the decoder's table gives for its OPC, SUB and fields, and these lie in range (spec 07 R178,
R179). -/
def Statement (i : Instr) : Prop :=
  i.canonical = true → ∀ c, i.code = some c →
    c.1 < 256 ∧ c.2.1 < 8 ∧ reservedOpcode c.1 = false ∧ c.1 ≠ 0xCB ∧ formOf c.1 c.2.1 c.2.2 = some i ∧ c.2.2.canonical = true


/-- A form whose number is in the table, by evaluation. -/
theorem of_code {i : Instr} {k c : Nat × Nat × Enc} (h : i.canonical = true) (hc : i.code = some c) (hk : i.code = some k)
    (hf : (decide (k.1 < 256) && decide (k.2.1 < 8) && !reservedOpcode k.1 && decide (k.1 ≠ 0xCB), formOf k.1 k.2.1 k.2.2)
      = (true, some i)) :
    c.1 < 256 ∧ c.2.1 < 8 ∧ reservedOpcode c.1 = false ∧ c.1 ≠ 0xCB ∧ formOf c.1 c.2.1 c.2.2 = some i ∧ c.2.2.canonical = true := by
  obtain rfl : k = c := Option.some.inj (hk.symm.trans hc)
  have h1 := congrArg Prod.fst hf
  simp only [Bool.and_eq_true, decide_eq_true_eq, Bool.not_eq_true'] at h1
  refine ⟨h1.1.1.1, h1.1.1.2, h1.1.2, h1.2, congrArg Prod.snd hf, ?_⟩
  simp only [Instr.canonical, hk, Option.all_some, Bool.and_eq_true] at h
  exact h.1

theorem nop (e : Enc) : Statement (.nop e) := fun h _ hc => of_code h hc rfl rfl
theorem exit (e : Enc) : Statement (.exit e) := fun h _ hc => of_code h hc rfl rfl
theorem bra (e : Enc) : Statement (.bra e) := fun h _ hc => of_code h hc rfl rfl
theorem brz (e : Enc) : Statement (.brz e) := fun h _ hc => of_code h hc rfl rfl
theorem brnz (e : Enc) : Statement (.brnz e) := fun h _ hc => of_code h hc rfl rfl
theorem call (e : Enc) : Statement (.call e) := fun h _ hc => of_code h hc rfl rfl
theorem calli (e : Enc) : Statement (.calli e) := fun h _ hc => of_code h hc rfl rfl
theorem ret (e : Enc) : Statement (.ret e) := fun h _ hc => of_code h hc rfl rfl
theorem jmpi (e : Enc) : Statement (.jmpi e) := fun h _ hc => of_code h hc rfl rfl
theorem skipz (e : Enc) : Statement (.skipz e) := fun h _ hc => of_code h hc rfl rfl
theorem divb (e : Enc) : Statement (.divb e) := fun h _ hc => of_code h hc rfl rfl
theorem join (e : Enc) : Statement (.join e) := fun h _ hc => of_code h hc rfl rfl
theorem yield (e : Enc) : Statement (.yield e) := fun h _ hc => of_code h hc rfl rfl
theorem bar (e : Enc) : Statement (.bar e) := fun h _ hc => of_code h hc rfl rfl
theorem bara (e : Enc) : Statement (.bara e) := fun h _ hc => of_code h hc rfl rfl
theorem barw (e : Enc) : Statement (.barw e) := fun h _ hc => of_code h hc rfl rfl
theorem sleep (e : Enc) : Statement (.sleep e) := fun h _ hc => of_code h hc rfl rfl
theorem prio (e : Enc) : Statement (.prio e) := fun h _ hc => of_code h hc rfl rfl
theorem getid (e : Enc) : Statement (.getid e) := fun h _ hc => of_code h hc rfl rfl
theorem csrr (e : Enc) : Statement (.csrr e) := fun h _ hc => of_code h hc rfl rfl
theorem csrw (e : Enc) : Statement (.csrw e) := fun h _ hc => of_code h hc rfl rfl
theorem csrxSwap (e : Enc) : Statement (.csrxSwap e) := fun h _ hc => of_code h hc rfl rfl
theorem csrxSet (e : Enc) : Statement (.csrxSet e) := fun h _ hc => of_code h hc rfl rfl
theorem csrxClear (e : Enc) : Statement (.csrxClear e) := fun h _ hc => of_code h hc rfl rfl
theorem lpcr (e : Enc) : Statement (.lpcr e) := fun h _ hc => of_code h hc rfl rfl
theorem trap (e : Enc) : Statement (.trap e) := fun h _ hc => of_code h hc rfl rfl
theorem svc (e : Enc) : Statement (.svc e) := fun h _ hc => of_code h hc rfl rfl
theorem eret (e : Enc) : Statement (.eret e) := fun h _ hc => of_code h hc rfl rfl
theorem mark (e : Enc) : Statement (.mark e) := fun h _ hc => of_code h hc rfl rfl
theorem tsrd (e : Enc) : Statement (.tsrd e) := fun h _ hc => of_code h hc rfl rfl
theorem smov (e : Enc) : Statement (.smov e) := fun h _ hc => of_code h hc rfl rfl
theorem sadd (e : Enc) : Statement (.sadd e) := fun h _ hc => of_code h hc rfl rfl
theorem ssub (e : Enc) : Statement (.ssub e) := fun h _ hc => of_code h hc rfl rfl
theorem smul (e : Enc) : Statement (.smul e) := fun h _ hc => of_code h hc rfl rfl
theorem smulh (e : Enc) : Statement (.smulh e) := fun h _ hc => of_code h hc rfl rfl
theorem sdiv (e : Enc) : Statement (.sdiv e) := fun h _ hc => of_code h hc rfl rfl
theorem srem (e : Enc) : Statement (.srem e) := fun h _ hc => of_code h hc rfl rfl
theorem sand (e : Enc) : Statement (.sand e) := fun h _ hc => of_code h hc rfl rfl
theorem sor (e : Enc) : Statement (.sor e) := fun h _ hc => of_code h hc rfl rfl
theorem sxor (e : Enc) : Statement (.sxor e) := fun h _ hc => of_code h hc rfl rfl
theorem sshl (e : Enc) : Statement (.sshl e) := fun h _ hc => of_code h hc rfl rfl
theorem sshr (e : Enc) : Statement (.sshr e) := fun h _ hc => of_code h hc rfl rfl
theorem ssar (e : Enc) : Statement (.ssar e) := fun h _ hc => of_code h hc rfl rfl
theorem smin (e : Enc) : Statement (.smin e) := fun h _ hc => of_code h hc rfl rfl
theorem smax (e : Enc) : Statement (.smax e) := fun h _ hc => of_code h hc rfl rfl
theorem scmp (e : Enc) : Statement (.scmp e) := fun h _ hc => of_code h hc rfl rfl
theorem ssel (e : Enc) : Statement (.ssel e) := fun h _ hc => of_code h hc rfl rfl
theorem sbfe (e : Enc) : Statement (.sbfe e) := fun h _ hc => of_code h hc rfl rfl
theorem sbfi (e : Enc) : Statement (.sbfi e) := fun h _ hc => of_code h hc rfl rfl
theorem spopc (e : Enc) : Statement (.spopc e) := fun h _ hc => of_code h hc rfl rfl
theorem sclz (e : Enc) : Statement (.sclz e) := fun h _ hc => of_code h hc rfl rfl
theorem mand (e : Enc) : Statement (.mand e) := fun h _ hc => of_code h hc rfl rfl
theorem mor (e : Enc) : Statement (.mor e) := fun h _ hc => of_code h hc rfl rfl
theorem mxor (e : Enc) : Statement (.mxor e) := fun h _ hc => of_code h hc rfl rfl
theorem mandn (e : Enc) : Statement (.mandn e) := fun h _ hc => of_code h hc rfl rfl
theorem mpopc (e : Enc) : Statement (.mpopc e) := fun h _ hc => of_code h hc rfl rfl
theorem mffs (e : Enc) : Statement (.mffs e) := fun h _ hc => of_code h hc rfl rfl
theorem mbit (e : Enc) : Statement (.mbit e) := fun h _ hc => of_code h hc rfl rfl
theorem pand (e : Enc) : Statement (.pand e) := fun h _ hc => of_code h hc rfl rfl
theorem por (e : Enc) : Statement (.por e) := fun h _ hc => of_code h hc rfl rfl
theorem pxor (e : Enc) : Statement (.pxor e) := fun h _ hc => of_code h hc rfl rfl
theorem pnot (e : Enc) : Statement (.pnot e) := fun h _ hc => of_code h hc rfl rfl
theorem pmov (e : Enc) : Statement (.pmov e) := fun h _ hc => of_code h hc rfl rfl
theorem ptom (e : Enc) : Statement (.ptom e) := fun h _ hc => of_code h hc rfl rfl
theorem mtop (e : Enc) : Statement (.mtop e) := fun h _ hc => of_code h hc rfl rfl
theorem pany (e : Enc) : Statement (.pany e) := fun h _ hc => of_code h hc rfl rfl
theorem pall (e : Enc) : Statement (.pall e) := fun h _ hc => of_code h hc rfl rfl
theorem vmov (e : Enc) : Statement (.vmov e) := fun h _ hc => of_code h hc rfl rfl
theorem vadd (e : Enc) : Statement (.vadd e) := fun h _ hc => of_code h hc rfl rfl
theorem vsub (e : Enc) : Statement (.vsub e) := fun h _ hc => of_code h hc rfl rfl
theorem vaddc (e : Enc) : Statement (.vaddc e) := fun h _ hc => of_code h hc rfl rfl
theorem vsubb (e : Enc) : Statement (.vsubb e) := fun h _ hc => of_code h hc rfl rfl
theorem vmul (e : Enc) : Statement (.vmul e) := fun h _ hc => of_code h hc rfl rfl
theorem vmulh (e : Enc) : Statement (.vmulh e) := fun h _ hc => of_code h hc rfl rfl
theorem vmad (e : Enc) : Statement (.vmad e) := fun h _ hc => of_code h hc rfl rfl
theorem vmadw (e : Enc) : Statement (.vmadw e) := fun h _ hc => of_code h hc rfl rfl
theorem vabsd (e : Enc) : Statement (.vabsd e) := fun h _ hc => of_code h hc rfl rfl
theorem vand (e : Enc) : Statement (.vand e) := fun h _ hc => of_code h hc rfl rfl
theorem vor (e : Enc) : Statement (.vor e) := fun h _ hc => of_code h hc rfl rfl
theorem vxor (e : Enc) : Statement (.vxor e) := fun h _ hc => of_code h hc rfl rfl
theorem vnot (e : Enc) : Statement (.vnot e) := fun h _ hc => of_code h hc rfl rfl
theorem vshl (e : Enc) : Statement (.vshl e) := fun h _ hc => of_code h hc rfl rfl
theorem vshr (e : Enc) : Statement (.vshr e) := fun h _ hc => of_code h hc rfl rfl
theorem vsar (e : Enc) : Statement (.vsar e) := fun h _ hc => of_code h hc rfl rfl
theorem vrot (e : Enc) : Statement (.vrot e) := fun h _ hc => of_code h hc rfl rfl
theorem vmin (e : Enc) : Statement (.vmin e) := fun h _ hc => of_code h hc rfl rfl
theorem vmax (e : Enc) : Statement (.vmax e) := fun h _ hc => of_code h hc rfl rfl
theorem vclz (e : Enc) : Statement (.vclz e) := fun h _ hc => of_code h hc rfl rfl
theorem vpopc (e : Enc) : Statement (.vpopc e) := fun h _ hc => of_code h hc rfl rfl
theorem vbfe (e : Enc) : Statement (.vbfe e) := fun h _ hc => of_code h hc rfl rfl
theorem vbfi (e : Enc) : Statement (.vbfi e) := fun h _ hc => of_code h hc rfl rfl
theorem vcmp (e : Enc) : Statement (.vcmp e) := fun h _ hc => of_code h hc rfl rfl
theorem vsel (e : Enc) : Statement (.vsel e) := fun h _ hc => of_code h hc rfl rfl
theorem vcvt (e : Enc) : Statement (.vcvt e) := fun h _ hc => of_code h hc rfl rfl
theorem fadd (e : Enc) : Statement (.fadd e) := fun h _ hc => of_code h hc rfl rfl
theorem fsub (e : Enc) : Statement (.fsub e) := fun h _ hc => of_code h hc rfl rfl
theorem fmul (e : Enc) : Statement (.fmul e) := fun h _ hc => of_code h hc rfl rfl
theorem ffma (e : Enc) : Statement (.ffma e) := fun h _ hc => of_code h hc rfl rfl
theorem fmin (e : Enc) : Statement (.fmin e) := fun h _ hc => of_code h hc rfl rfl
theorem fmax (e : Enc) : Statement (.fmax e) := fun h _ hc => of_code h hc rfl rfl
theorem fcmp (e : Enc) : Statement (.fcmp e) := fun h _ hc => of_code h hc rfl rfl
theorem fclass (e : Enc) : Statement (.fclass e) := fun h _ hc => of_code h hc rfl rfl
theorem fdiv (e : Enc) : Statement (.fdiv e) := fun h _ hc => of_code h hc rfl rfl
theorem fsqrt (e : Enc) : Statement (.fsqrt e) := fun h _ hc => of_code h hc rfl rfl
theorem frcp (e : Enc) : Statement (.frcp e) := fun h _ hc => of_code h hc rfl rfl
theorem frsq (e : Enc) : Statement (.frsq e) := fun h _ hc => of_code h hc rfl rfl
theorem fexp2 (e : Enc) : Statement (.fexp2 e) := fun h _ hc => of_code h hc rfl rfl
theorem flog2 (e : Enc) : Statement (.flog2 e) := fun h _ hc => of_code h hc rfl rfl
theorem fsin (e : Enc) : Statement (.fsin e) := fun h _ hc => of_code h hc rfl rfl
theorem fcos (e : Enc) : Statement (.fcos e) := fun h _ hc => of_code h hc rfl rfl
theorem fcvt (e : Enc) : Statement (.fcvt e) := fun h _ hc => of_code h hc rfl rfl
theorem frnd (e : Enc) : Statement (.frnd e) := fun h _ hc => of_code h hc rfl rfl
theorem fscl (e : Enc) : Statement (.fscl e) := fun h _ hc => of_code h hc rfl rfl
theorem vshufIdx (e : Enc) : Statement (.vshufIdx e) := fun h _ hc => of_code h hc rfl rfl
theorem vshufXor (e : Enc) : Statement (.vshufXor e) := fun h _ hc => of_code h hc rfl rfl
theorem vshufUp (e : Enc) : Statement (.vshufUp e) := fun h _ hc => of_code h hc rfl rfl
theorem vshufDown (e : Enc) : Statement (.vshufDown e) := fun h _ hc => of_code h hc rfl rfl
theorem vbcast (e : Enc) : Statement (.vbcast e) := fun h _ hc => of_code h hc rfl rfl
theorem vrotl (e : Enc) : Statement (.vrotl e) := fun h _ hc => of_code h hc rfl rfl
theorem vredAdd (e : Enc) : Statement (.vredAdd e) := fun h _ hc => of_code h hc rfl rfl
theorem vredMin (e : Enc) : Statement (.vredMin e) := fun h _ hc => of_code h hc rfl rfl
theorem vredMax (e : Enc) : Statement (.vredMax e) := fun h _ hc => of_code h hc rfl rfl
theorem vredAnd (e : Enc) : Statement (.vredAnd e) := fun h _ hc => of_code h hc rfl rfl
theorem vredOr (e : Enc) : Statement (.vredOr e) := fun h _ hc => of_code h hc rfl rfl
theorem vredXor (e : Enc) : Statement (.vredXor e) := fun h _ hc => of_code h hc rfl rfl
theorem vscanAdd (e : Enc) : Statement (.vscanAdd e) := fun h _ hc => of_code h hc rfl rfl
theorem vscanMin (e : Enc) : Statement (.vscanMin e) := fun h _ hc => of_code h hc rfl rfl
theorem vscanMax (e : Enc) : Statement (.vscanMax e) := fun h _ hc => of_code h hc rfl rfl
theorem vscanAnd (e : Enc) : Statement (.vscanAnd e) := fun h _ hc => of_code h hc rfl rfl
theorem vscanOr (e : Enc) : Statement (.vscanOr e) := fun h _ hc => of_code h hc rfl rfl
theorem vscanXor (e : Enc) : Statement (.vscanXor e) := fun h _ hc => of_code h hc rfl rfl
theorem rvsend (e : Enc) : Statement (.rvsend e) := fun h _ hc => of_code h hc rfl rfl
theorem rvrecv (e : Enc) : Statement (.rvrecv e) := fun h _ hc => of_code h hc rfl rfl
theorem badd (e : Enc) : Statement (.badd e) := fun h _ hc => of_code h hc rfl rfl
theorem bsub (e : Enc) : Statement (.bsub e) := fun h _ hc => of_code h hc rfl rfl
theorem bneg (e : Enc) : Statement (.bneg e) := fun h _ hc => of_code h hc rfl rfl
theorem bcmp (e : Enc) : Statement (.bcmp e) := fun h _ hc => of_code h hc rfl rfl
theorem bshl (e : Enc) : Statement (.bshl e) := fun h _ hc => of_code h hc rfl rfl
theorem bshr (e : Enc) : Statement (.bshr e) := fun h _ hc => of_code h hc rfl rfl
theorem bmull (e : Enc) : Statement (.bmull e) := fun h _ hc => of_code h hc rfl rfl
theorem bmulh (e : Enc) : Statement (.bmulh e) := fun h _ hc => of_code h hc rfl rfl
theorem bmuls (e : Enc) : Statement (.bmuls e) := fun h _ hc => of_code h hc rfl rfl
theorem bdivqr (e : Enc) : Statement (.bdivqr e) := fun h _ hc => of_code h hc rfl rfl
theorem blenTag (e : Enc) : Statement (.blenTag e) := by
  intro h c hc
  have hd : e.dst.isScalar = true := by
    have h2 := h
    simp only [Instr.canonical, Bool.and_eq_true] at h2
    exact h2.2
  refine of_code h hc rfl ?_
  change (true, some (if e.dst.isScalar then Instr.blenTag e else Instr.blenResize e)) = _
  rw [hd]
  rfl
theorem blenResize (e : Enc) : Statement (.blenResize e) := by
  intro h c hc
  have hd : e.dst.isScalar = false := by
    have h2 := h
    simp only [Instr.canonical, Bool.and_eq_true, Bool.not_eq_true'] at h2
    exact h2.2
  refine of_code h hc rfl ?_
  change (true, some (if e.dst.isScalar then Instr.blenTag e else Instr.blenResize e)) = _
  rw [hd]
  rfl
theorem bnorm (e : Enc) : Statement (.bnorm e) := fun h _ hc => of_code h hc rfl rfl
theorem bspill (e : Enc) : Statement (.bspill e) := fun h _ hc => of_code h hc rfl rfl
theorem bfill (e : Enc) : Statement (.bfill e) := fun h _ hc => of_code h hc rfl rfl
theorem cres (e : Enc) : Statement (.cres e) := fun h _ hc => of_code h hc rfl rfl
theorem madd (e : Enc) : Statement (.madd e) := fun h _ hc => of_code h hc rfl rfl
theorem msub (e : Enc) : Statement (.msub e) := fun h _ hc => of_code h hc rfl rfl
theorem mmul (e : Enc) : Statement (.mmul e) := fun h _ hc => of_code h hc rfl rfl
theorem mred (e : Enc) : Statement (.mred e) := fun h _ hc => of_code h hc rfl rfl
theorem ld (e : Enc) : Statement (.ld e) := fun h _ hc => of_code h hc rfl rfl
theorem ldu (e : Enc) : Statement (.ldu e) := fun h _ hc => of_code h hc rfl rfl
theorem st (e : Enc) : Statement (.st e) := fun h _ hc => of_code h hc rfl rfl
theorem ldb (e : Enc) : Statement (.ldb e) := fun h _ hc => of_code h hc rfl rfl
theorem stb (e : Enc) : Statement (.stb e) := fun h _ hc => of_code h hc rfl rfl
theorem atomAdd (e : Enc) : Statement (.atomAdd e) := fun h _ hc => of_code h hc rfl rfl
theorem atomAnd (e : Enc) : Statement (.atomAnd e) := fun h _ hc => of_code h hc rfl rfl
theorem atomOr (e : Enc) : Statement (.atomOr e) := fun h _ hc => of_code h hc rfl rfl
theorem atomXor (e : Enc) : Statement (.atomXor e) := fun h _ hc => of_code h hc rfl rfl
theorem atomMin (e : Enc) : Statement (.atomMin e) := fun h _ hc => of_code h hc rfl rfl
theorem atomMax (e : Enc) : Statement (.atomMax e) := fun h _ hc => of_code h hc rfl rfl
theorem atomExch (e : Enc) : Statement (.atomExch e) := fun h _ hc => of_code h hc rfl rfl
theorem atomCas (e : Enc) : Statement (.atomCas e) := fun h _ hc => of_code h hc rfl rfl
theorem atomcCas (e : Enc) : Statement (.atomcCas e) := fun h _ hc => of_code h hc rfl rfl
theorem atomXadd (e : Enc) : Statement (.atomXadd e) := fun h _ hc => of_code h hc rfl rfl
theorem redAdd (e : Enc) : Statement (.redAdd e) := fun h _ hc => of_code h hc rfl rfl
theorem redAnd (e : Enc) : Statement (.redAnd e) := fun h _ hc => of_code h hc rfl rfl
theorem redOr (e : Enc) : Statement (.redOr e) := fun h _ hc => of_code h hc rfl rfl
theorem redXor (e : Enc) : Statement (.redXor e) := fun h _ hc => of_code h hc rfl rfl
theorem redMin (e : Enc) : Statement (.redMin e) := fun h _ hc => of_code h hc rfl rfl
theorem redMax (e : Enc) : Statement (.redMax e) := fun h _ hc => of_code h hc rfl rfl
theorem waitc (e : Enc) : Statement (.waitc e) := by
  intro h c hc
  have hd : e.mod.getLsbD 7 = false := by
    have h2 := h
    simp only [Instr.canonical, Bool.and_eq_true, Bool.not_eq_true'] at h2
    exact h2.2
  refine of_code h hc rfl ?_
  change (true, some (if e.mod.getLsbD 7 then Instr.waitcScFence e else Instr.waitc e)) = _
  rw [hd]
  rfl
theorem waitcScFence (e : Enc) : Statement (.waitcScFence e) := by
  intro h c hc
  have hd : e.mod.getLsbD 7 = true := by
    have h2 := h
    simp only [Instr.canonical, Bool.and_eq_true] at h2
    exact h2.2
  refine of_code h hc rfl ?_
  change (true, some (if e.mod.getLsbD 7 then Instr.waitcScFence e else Instr.waitc e)) = _
  rw [hd]
  rfl
theorem pref (e : Enc) : Statement (.pref e) := fun h _ hc => of_code h hc rfl rfl
theorem cflush (e : Enc) : Statement (.cflush e) := fun h _ hc => of_code h hc rfl rfl
theorem cinv (e : Enc) : Statement (.cinv e) := fun h _ hc => of_code h hc rfl rfl
theorem xcopy (e : Enc) : Statement (.xcopy e) := fun h _ hc => of_code h hc rfl rfl
theorem xreg (e : Enc) : Statement (.xreg e) := fun h _ hc => of_code h hc rfl rfl
theorem xgath (e : Enc) : Statement (.xgath e) := fun h _ hc => of_code h hc rfl rfl
theorem xchain (e : Enc) : Statement (.xchain e) := fun h _ hc => of_code h hc rfl rfl
theorem qpush (e : Enc) : Statement (.qpush e) := fun h _ hc => of_code h hc rfl rfl
theorem qpop (e : Enc) : Statement (.qpop e) := fun h _ hc => of_code h hc rfl rfl
theorem halloc (e : Enc) : Statement (.halloc e) := fun h _ hc => of_code h hc rfl rfl
theorem hfree (e : Enc) : Statement (.hfree e) := fun h _ hc => of_code h hc rfl rfl
theorem rgive (e : Enc) : Statement (.rgive e) := fun h _ hc => of_code h hc rfl rfl
theorem rclaim (e : Enc) : Statement (.rclaim e) := fun h _ hc => of_code h hc rfl rfl
theorem mxmac (e : Enc) : Statement (.mxmac e) := fun h _ hc => of_code h hc rfl rfl
theorem mxpair (e : Enc) : Statement (.mxpair e) := fun h _ hc => of_code h hc rfl rfl
theorem mxrd (e : Enc) : Statement (.mxrd e) := fun h _ hc => of_code h hc rfl rfl
theorem mxwr (e : Enc) : Statement (.mxwr e) := fun h _ hc => of_code h hc rfl rfl
theorem mxz (e : Enc) : Statement (.mxz e) := fun h _ hc => of_code h hc rfl rfl
theorem boomld (e : Enc) : Statement (.boomld e) := fun h _ hc => of_code h hc rfl rfl
theorem bmul (e : Enc) : Statement (.bmul e) := fun h _ hc => of_code h hc rfl rfl
theorem ntt (e : Enc) : Statement (.ntt e) := fun h _ hc => of_code h hc rfl rfl
theorem intt (e : Enc) : Statement (.intt e) := fun h _ hc => of_code h hc rfl rfl
theorem kswitch (e : Enc) : Statement (.kswitch e) := fun h _ hc => of_code h hc rfl rfl
theorem xcrt (e : Enc) : Statement (.xcrt e) := fun h _ hc => of_code h hc rfl rfl
theorem lnest (e : NestEnc) : Statement (.lnest e) := fun _ _ hc => nomatch hc
theorem cuepush (e : Enc) : Statement (.cuepush e) := fun h _ hc => of_code h hc rfl rfl
theorem cuepop (e : Enc) : Statement (.cuepop e) := fun h _ hc => of_code h hc rfl rfl
theorem gainadd (e : Enc) : Statement (.gainadd e) := fun h _ hc => of_code h hc rfl rfl
theorem gainset (e : Enc) : Statement (.gainset e) := fun h _ hc => of_code h hc rfl rfl
theorem resadd (e : Enc) : Statement (.resadd e) := fun h _ hc => of_code h hc rfl rfl
theorem grow (e : Enc) : Statement (.grow e) := fun h _ hc => of_code h hc rfl rfl
theorem sklook (e : Enc) : Statement (.sklook e) := fun h _ hc => of_code h hc rfl rfl
theorem skld (e : Enc) : Statement (.skld e) := fun h _ hc => of_code h hc rfl rfl
theorem skref (e : Enc) : Statement (.skref e) := fun h _ hc => of_code h hc rfl rfl
theorem skunref (e : Enc) : Statement (.skunref e) := fun h _ hc => of_code h hc rfl rfl
theorem skcopy (e : Enc) : Statement (.skcopy e) := fun h _ hc => of_code h hc rfl rfl
theorem rootcas (e : Enc) : Statement (.rootcas e) := fun h _ hc => of_code h hc rfl rfl
theorem reservedOpc (e : W64) : Statement (.reservedOpc e) := fun _ _ hc => nomatch hc
theorem sleepIntervalEnd : Statement .sleepIntervalEnd := fun _ _ hc => nomatch hc
theorem rendezvousPairing : Statement .rendezvousPairing := fun _ _ hc => nomatch hc
theorem copyOperationCompletion : Statement .copyOperationCompletion := fun _ _ hc => nomatch hc
theorem heapOperationCompletion : Statement .heapOperationCompletion := fun _ _ hc => nomatch hc
theorem mxpairPairing : Statement .mxpairPairing := fun _ _ hc => nomatch hc
theorem mxpairTimeout : Statement .mxpairTimeout := fun _ _ hc => nomatch hc
theorem matrixOperationStart : Statement .matrixOperationStart := fun _ _ hc => nomatch hc
theorem matrixOperationCompletion : Statement .matrixOperationCompletion := fun _ _ hc => nomatch hc
theorem tokenGrant : Statement .tokenGrant := fun _ _ hc => nomatch hc
theorem burstEndLimit : Statement .burstEndLimit := fun _ _ hc => nomatch hc
theorem burstEndIdle : Statement .burstEndIdle := fun _ _ hc => nomatch hc
theorem nttUnitOperationCompletion : Statement .nttUnitOperationCompletion := fun _ _ hc => nomatch hc
theorem streamEngineCompletion : Statement .streamEngineCompletion := fun _ _ hc => nomatch hc
theorem cueWriteOut : Statement .cueWriteOut := fun _ _ hc => nomatch hc
theorem lookupOrAllocate : Statement .lookupOrAllocate := fun _ _ hc => nomatch hc
theorem stockOperationCompletion : Statement .stockOperationCompletion := fun _ _ hc => nomatch hc
theorem loadCompletion : Statement .loadCompletion := fun _ _ hc => nomatch hc
theorem storeCompletion : Statement .storeCompletion := fun _ _ hc => nomatch hc
theorem pageWalk : Statement .pageWalk := fun _ _ hc => nomatch hc
theorem faultRecord : Statement .faultRecord := fun _ _ hc => nomatch hc
theorem retry : Statement .retry := fun _ _ hc => nomatch hc
theorem fail : Statement .fail := fun _ _ hc => nomatch hc
theorem tlbinv : Statement .tlbinv := fun _ _ hc => nomatch hc
theorem tlbInvalidateDone : Statement .tlbInvalidateDone := fun _ _ hc => nomatch hc
theorem dependenceCheck : Statement .dependenceCheck := fun _ _ hc => nomatch hc
theorem packetTake : Statement .packetTake := fun _ _ hc => nomatch hc
theorem teamDispatch : Statement .teamDispatch := fun _ _ hc => nomatch hc
theorem teamAdmission : Statement .teamAdmission := fun _ _ hc => nomatch hc
theorem gridCompletion : Statement .gridCompletion := fun _ _ hc => nomatch hc
theorem preempt : Statement .preempt := fun _ _ hc => nomatch hc
theorem preemptImageWrite : Statement .preemptImageWrite := fun _ _ hc => nomatch hc
theorem restore : Statement .restore := fun _ _ hc => nomatch hc
theorem keyLoad : Statement .keyLoad := fun _ _ hc => nomatch hc
theorem keyDestroy : Statement .keyDestroy := fun _ _ hc => nomatch hc
theorem keyDestroySlice : Statement .keyDestroySlice := fun _ _ hc => nomatch hc
theorem mapoutAck : Statement .mapoutAck := fun _ _ hc => nomatch hc
theorem bankroleWrite : Statement .bankroleWrite := fun _ _ hc => nomatch hc
theorem bankRoleTakeUp : Statement .bankRoleTakeUp := fun _ _ hc => nomatch hc
theorem smpctlWrite : Statement .smpctlWrite := fun _ _ hc => nomatch hc
theorem registerWrite : Statement .registerWrite := fun _ _ hc => nomatch hc
theorem correctedError : Statement .correctedError := fun _ _ hc => nomatch hc
theorem uncorrectableMemoryError : Statement .uncorrectableMemoryError := fun _ _ hc => nomatch hc
theorem patrolScrub : Statement .patrolScrub := fun _ _ hc => nomatch hc
theorem contextDataError : Statement .contextDataError := fun _ _ hc => nomatch hc
theorem coreHardwareFault : Statement .coreHardwareFault := fun _ _ hc => nomatch hc
theorem dieControlFault : Statement .dieControlFault := fun _ _ hc => nomatch hc
theorem coreReset : Statement .coreReset := fun _ _ hc => nomatch hc
theorem coldReset : Statement .coldReset := fun _ _ hc => nomatch hc
theorem warmReset : Statement .warmReset := fun _ _ hc => nomatch hc
theorem powerLoss : Statement .powerLoss := fun _ _ hc => nomatch hc
theorem coreHot : Statement .coreHot := fun _ _ hc => nomatch hc
theorem coreHotClear : Statement .coreHotClear := fun _ _ hc => nomatch hc
theorem droopEvent : Statement .droopEvent := fun _ _ hc => nomatch hc
theorem budgetWindow : Statement .budgetWindow := fun _ _ hc => nomatch hc
theorem linkStateChange : Statement .linkStateChange := fun _ _ hc => nomatch hc
theorem hostMemoryAccess : Statement .hostMemoryAccess := fun _ _ hc => nomatch hc
theorem getIdentity : Statement .getIdentity := fun _ _ hc => nomatch hc
theorem getBringup : Statement .getBringup := fun _ _ hc => nomatch hc
theorem stageConfig : Statement .stageConfig := fun _ _ hc => nomatch hc
theorem attest : Statement .attest := fun _ _ hc => nomatch hc
theorem portSend : Statement .portSend := fun _ _ hc => nomatch hc
theorem portRecv : Statement .portRecv := fun _ _ hc => nomatch hc
theorem portMessageReceive : Statement .portMessageReceive := fun _ _ hc => nomatch hc
theorem ptpEventMessage : Statement .ptpEventMessage := fun _ _ hc => nomatch hc
theorem slateList : Statement .slateList := fun _ _ hc => nomatch hc
theorem slateRead : Statement .slateRead := fun _ _ hc => nomatch hc
theorem slateAck : Statement .slateAck := fun _ _ hc => nomatch hc
theorem epoch : Statement .epoch := fun _ _ hc => nomatch hc
theorem freeze : Statement .freeze := fun _ _ hc => nomatch hc
theorem slateStore : Statement .slateStore := fun _ _ hc => nomatch hc
theorem reelMirrorWrite : Statement .reelMirrorWrite := fun _ _ hc => nomatch hc
theorem sampleInstant : Statement .sampleInstant := fun _ _ hc => nomatch hc
theorem sampleWrite : Statement .sampleWrite := fun _ _ hc => nomatch hc
theorem instructionFetch : Statement .instructionFetch := fun _ _ hc => nomatch hc
theorem multiCycleFormCompletion : Statement .multiCycleFormCompletion := fun _ _ hc => nomatch hc
theorem bmulSchoolbookCompletion : Statement .bmulSchoolbookCompletion := fun _ _ hc => nomatch hc
theorem cycleCountOverflow : Statement .cycleCountOverflow := fun _ _ hc => nomatch hc
theorem temperatureSensorReading : Statement .temperatureSensorReading := fun _ _ hc => nomatch hc
theorem hostAgentAccess : Statement .hostAgentAccess := fun _ _ hc => nomatch hc

end Sys2Proof.Laws.Selects
end

