-- ==== Sys2Proof/Tests/Slice0.lean ====
section
/-! SUPPORT. The model's own tests: for every statement a state and operands that meet its hypotheses (witness_…), words of the
specification that the decoder reads (test_decode…, test_fields…), ill-formed terms that WellFormed refuses, and results worked out by
hand from the rules. Expected values come from the specification. -/

open Sys2Proof Sys2Proof.Machine Sys2Proof.Claims
set_option maxRecDepth 100000
set_option exponentiation.threshold 4096
namespace Sys2Proof.Tests
/-- A kernel loaded from outside: one group of 16 lanes. -/
def dev : State := State.reset.loaded

/-- Register values: even registers hold 256 times the lane, or 256; odd ones 0. -/
def vreg (k : Nat) : VReg := { val := (List.range 16).map fun i => if k % 2 = 0 then BitVec.ofNat 32 (256 * i) else 0, mark := 0, tag := 16 }
def sreg (k : Nat) : W32 := if k % 2 = 0 then 256 else 0

/-- Translations of a page of data and of a page of text. -/
def pages : List Tlb := [{ ctx := 0, vpage := 0, bits := 16, leaf := 0x33 }, { ctx := 0, vpage := 1, bits := 16, leaf := 0x10053 }]

/-- The bytes of a limb array of one limb, which is 5, at address 256. -/
def array : Memory := [(256, 1), (260, 17), (264, 1), (272, 5)]

/-- The descriptor of context 0 and its tables: one page of 1 GiB at address 0. -/
def tables : Memory :=
  [(0x20001, 0x10), (0x20002, 2), (0x20008, 1), (0x21000, 1), (0x21001, 0x20), (0x21002, 2), (0x22000, 1), (0x22001, 0x30),
   (0x22002, 2), (0x23000, 0x33)]

/-- A state in which every form can have its effect: registers are written, two pages are translated, the team has queues, the
cluster holds a token. -/
def one : State :=
  let s := dev.modGroup 0 fun g => { g with vregs := (List.range 32).map vreg, sregs := (List.range 128).map sreg }
  { s with
    regions := 1
    mem := array ++ tables
    ctxtbl := 0x20000
    cores := s.cores.modify 0 fun c => { c with tlb1 := [pages, [], [], []], tlb2 := pages }
    dies := s.dies.modify 0 fun d => { d with clusters := d.clusters.modify 0 fun c => { c with token := true } }
    teams := s.teams.map fun t => { t with queues := List.replicate 4 [], allow := 0, even := { t.even with cells := array } } }

/-- The group of a state with one. -/
def only (s : State) : Group := (s.groups.head?).getD (Group.atLaunch loadedGrid 0 0 0 0 0 false 0 0)

/-- The fields of the instruction that a word stands for. -/
def fields (w : Nat) : Nat × Nat × Enc :=
  match decode (BitVec.ofNat 256 w) with
  | .ok i => (i.code).getD (0, 0, encOf 0)
  | .error _ => (0, 0, encOf 0)

/-- Its issue at a state. -/
def issueOf (s : State) (w : Nat) : Iss := s.iss (only s) (fields w).1 (fields w).2.1 (fields w).2.2

/-- The form that a word stands for, a row of the table, has its own effect at s. -/
def clearAt (s : State) (w : Nat) : Bool := (fields w).1 != 0 && (issueOf s w).clear s

/-- An outstanding operation that is queued. -/
def opOf (id : Nat) (cls : Option Cls) (body : OpBody) : Op :=
  { id := id, cls := cls, pc := 65600, word := 0, phase := .queued, lands := [], hold := [], holdW := [], body := body, fault := none }

/-- A state in which the group has an operation. -/
def withOp (s : State) (o : Op) : State := s.modGroup 0 fun g => { g with ops := [o] }

/-- The issue of the form that a word stands for, with other fields. -/
def issueBy (s : State) (w : Nat) (f : Enc → Enc) : Iss := s.iss (only s) (fields w).1 (fields w).2.1 (f (fields w).2.2)

/-- The state with every even register one greater, so that no address is aligned. -/
def odd : State := one.modGroup 0 fun g => { g with
  vregs := (List.range 32).map fun k => { vreg k with val := (vreg k).val.map (· + (if k % 2 = 0 then 1 else 0)) }
  sregs := (List.range 128).map fun k => sreg k + (if k % 2 = 0 then 1 else 0) }

/-- The state with vector register k as r. -/
def withV (s : State) (k : Nat) (r : VReg) : State := s.modGroup 0 fun g => { g with vregs := g.vregs.set k r }

/-- A register with the same word in every lane. -/
def all (w : W32) : VReg := { val := List.replicate 16 w, mark := 0, tag := 16 }

/-- A register whose lane 0 is marked. -/
def cold : VReg := { val := List.replicate 16 0, mark := 1, tag := 16 }

/-- The state with scalar register k as w. -/
def withS (s : State) (k : Nat) (w : W32) : State := s.modGroup 0 fun g => { g with sregs := g.sregs.set k w }

/-- The state in which no access is allowed, and that in which no page is present. -/
def noAccess : State :=
  { one with cores := one.cores.modify 0 fun c => { c with tlb1 := [pages.map fun t => { t with leaf := 3 }, [], [], []] } }
def noPage : State :=
  { one with cores := one.cores.modify 0 fun c => { c with tlb1 := [[], [], [], []], tlb2 := [] }, mem := array ++ tables.take 9 }

/-- A state in which the page's key is not loaded, one in which every walker is in use, and one in which the budget of loads and stores is
used up while other requests wait. -/
def noKey : State :=
  { one with cores := one.cores.modify 0 fun c =>
      { c with tlb1 := [pages.map fun t => { t with leaf := t.leaf + 0x200000000000000 }, [], [], []] } }
def busy : State := { noPage with dies := noPage.dies.modify 0 fun d => { d with walks := (1, 64) } }
def spent : State :=
  { one with
    dies := one.dies.modify 0 fun d => { d with bwb := [1, 0, 0, 0, 0], bwUsed := [64, 0, 0, 0, 0] }
    cores := one.cores.modify 0 fun c => { c with smp := { c.smp with staging := [0] } } }

/-- A state with an input. -/
def given (s : State) (i : Input) : State := { s with input := i }

/-- Bytes from an address on, in canonical form. -/
def bytesAt (a : Nat) (bs : List Byte) : Memory :=
  ((List.range bs.length).zip bs).filterMap fun p => if p.2 = 0 then none else some (a + p.1, p.2)

/-- ScalarForms: each scalar form is clear somewhere. -/
theorem witness_scalarForms : List.all
  [0x20000008903f2080, 0x20005008903f2084, 0x20005008903f2088, 0x20005008903f208c, 0x20005008903f2090,
   0x20005008903f2094, 0x20005008903f2098, 0x20005008903f209c, 0x20005008903f20a0, 0x20005008903f20a4,
   0x20005008903f20a8, 0x20005008903f20ac, 0x20005008903f20b0, 0x20005008903f20b4, 0x20005008903f20b8,
   0x20005008903f20bc, 0x18020005008903f20c2, 0x20000008903f20cc, 0x20000008903f20d0]
  (clearAt one) = true := by decide

/-- BitFields: SBFE and SBFI is clear somewhere. -/
theorem witness_bitFields : List.all
  [0x20005008903f20c4, 0x18020005008903f20ca]
  (clearAt one) = true := by decide

/-- MaskForms: each form of masks is clear somewhere. -/
theorem witness_maskForms : List.all
  [0x5008903f20d4, 0x5008903f20d8, 0x5008903f20dc, 0x5008903f20e0, 0x8903f20e4, 0x8903f20e8, 0x5008903f20ec,
   0x180903f2114, 0x8c13f0118, 0x180903f211c, 0x180903f2120]
  (clearAt one) = true := by decide

/-- Predicates: each predicate form is clear somewhere. -/
theorem witness_predicates : List.all
  [0x60180c13f0100, 0x60180c13f0104, 0x60180c13f0108, 0x180c13f010c, 0x180c13f0110]
  (clearAt one) = true := by decide

/-- VectorForms: each element-wise integer form, VADDC and VSUBB is clear somewhere. -/
theorem witness_vectorForms : List.all
  [0x20005008083f0144, 0x20005008083f0148, 0x20005008083f014c, 0x20005008083f0150, 0x20005008083f0154,
   0x20005008083f0158, 0x18020005008083f015e, 0x20005008083f0164, 0x20005008083f0168, 0x20005008083f016c,
   0x20005008083f0170, 0x20000008083f0174, 0x20005008083f0178, 0x20005008083f017c, 0x20005008083f0180,
   0x20005008083f0184, 0x20005008083f0188, 0x20005008083f018c, 0x20000008083f0190, 0x20000008083f0194,
   0x20005008083f0198, 0x18020005008083f019e, 0x20005008083f01a0]
  (clearAt one) = true := by decide

/-- VectorMoves: VMOV, VSEL and the moves between lanes is clear somewhere. -/
theorem witness_vectorMoves : List.all
  [0x40000008083f0140, 0x18040005008083f01a6, 0x20005008083f020c, 0x20005008083f060c, 0x20005008083f0a0c,
   0x20005008083f0e0c, 0x20005008083f0210, 0x20005008083f021c]
  (clearAt one) = true := by decide

/-- FloatForms: each float form and conversion is clear somewhere. -/
theorem witness_floatForms : List.all
  [0x40005008083f01c0, 0x40005008083f01c4, 0x40005008083f01c8, 0x18040005008083f01ce, 0x40005008083f01d0,
   0x40005008083f01d4, 0x40005008083f01d8, 0x40000008083f01dc, 0x40005008083f01e0, 0x40000008083f01e4,
   0x40000008083f01e8, 0x40000008083f01ec, 0x40000008083f01f0, 0x40000008083f01f4, 0x40000008083f01f8,
   0x40000008083f01fc, 0x40002008083f0200, 0x40000008083f0204, 0x40005008083f0208, 0x40000008083f01a8]
  (clearAt one) = true := by decide

/-- Reductions: each VRED and VSCAN is clear somewhere. -/
theorem witness_reductions : List.all
  [0x40000008083f0214, 0x40000008083f0614, 0x40000008083f0a14, 0x20000008083f0e14, 0x20000008083f1214,
   0x20000008083f1614, 0x40000008083f0218, 0x40000008083f0618, 0x40000008083f0a18, 0x20000008083f0e18,
   0x20000008083f1218, 0x20000008083f1618]
  (clearAt one) = true := by decide

/-- BigNumberForms: each form of big numbers is clear somewhere. -/
theorem witness_bigNumberForms : List.all
  [0x5008083f0240, 0x5008083f0244, 0x8083f0248, 0x5008903f024c, 0x60008083f0250, 0x60008083f0254, 0x5008083f0258,
   0x5008083f025c, 0x60008083f0260, 0x5008083f0264, 0x60008083f0268, 0x8083f026c, 0x5118003f0270, 0x46118083f0274]
  (clearAt one) = true := by decide

/-- ModularArithmetic: each modular form is clear somewhere. -/
theorem witness_modular : List.all
  [0x18120005008083f0282, 0x18120005008083f0286, 0x18120005008083f028a, 0x18120005008083f028e]
  (clearAt one) = true := by decide

/-- NopAndYield, Divergence, BranchesAndCalls: each form is clear somewhere. -/
theorem witness_control : List.all
  [0x3f2004, 0x3f2008, 0x60005000003f200c, 0x60005118003f2010, 0x60005118003f2014, 0x60005000903f2018, 0x8903f201c,
   0x8003f2020, 0x8003f2024, 0x60005000003f2028, 0x60005180903f202c, 0x118003f2030, 0x3f2034]
  (clearAt one) = true := by decide

/-- Barriers, GroupForms: each form is clear somewhere. -/
theorem witness_groupForms : List.all
  [0x180003f2038, 0x180003f203c, 0x180003f2040, 0x8003f2044, 0x8003f2048, 0x180903f204c, 0x83f005c]
  (clearAt one) = true := by decide

/-- Csrs: each CSR form is clear somewhere. -/
theorem witness_csrForms : List.all
  [0x100070000903f2051, 0x100070008003f2055, 0x100070008903f2059, 0x100070008903f2459, 0x100070008903f2859]
  (clearAt one) = true := by decide

/-- SystemForms: TRAP, SVC, MARK and TSRD is clear somewhere. -/
theorem witness_systemForms : List.all
  [0x180003f2060, 0x180003f2068, 0x60180003f206c, 0x180903f2070]
  (clearAt one) = true := by decide

/-- LoadsAndStores: each form is clear somewhere. -/
theorem witness_memoryForms : List.all
  [0x40005008083f0290, 0x40005008903f2294, 0x40005008083f0298, 0x4405118083f029c, 0x4405118083f02a0,
   0x60000118003f22b0, 0x5008003f02b4, 0x5008003f02b8, 0x5008003f02bc]
  (clearAt one) = true := by decide

/-- Atomics: each form is clear somewhere. -/
theorem witness_atomicForms : List.all
  [0x18060405008083f02a6, 0x18060405008083f06a6, 0x18060405008083f0aa6, 0x18060405008083f0ea6, 0x18060405008083f12a6,
   0x18060405008083f16a6, 0x18060405008083f1aa6, 0x18060405008083f1ea6, 0x13004605008083f02aa, 0x1800605008083f06aa,
   0x4405008003f02ae, 0x4405008003f06ae, 0x4405008003f0aae, 0x4405008003f0eae, 0x4405008003f12ae, 0x4405008003f16ae]
  (clearAt one) = true := by decide

/-- Copies: each form of the copy engines is clear somewhere. -/
theorem witness_copyForms : List.all
  [0x18000046118003f22c2, 0x18000060118003f22c6, 0x118003f22c8, 0x60118003f22ce, 0x18000046118003f2316]
  (clearAt one) = true := by decide

/-- TeamResources: each form of queues, registers, heap and rendezvous is clear somewhere. -/
theorem witness_teamForms : List.all
  [0x2183003f02d0, 0x46180903f22d8, 0x118003f22dc, 0x60580003f22e0, 0x181003f22e4, 0x5180003f0220, 0x180083f0224]
  (clearAt one) = true := by decide

/-- MatrixEngine: MXMAC, MXRD, MXWR and MXZ is clear somewhere. -/
theorem witness_matrixForms : List.all
  [0x20004000000000046118003f0302, 0x60008083f0308, 0x5008003f030c, 0x180d83f2310]
  (clearAt one) = true := by decide

/-- NumberEngines: CRES, BMUL, KSWITCH and XCRT is clear somewhere. -/
theorem witness_engineForms : List.all
  [0x18000060118903f227a, 0x13000046118903f231a, 0x46118903f2326, 0x118903f232a]
  (clearAt one) = true := by decide

/-- CueHeap: each Cue form is clear somewhere. -/
theorem witness_cueForms : List.all
  [0x5008083f0340, 0x5000083f0344, 0x5008083f0348, 0x5008083f034c, 0x180903f2350, 0x180903f2354]
  (clearAt one) = true := by decide

/-- StockForms: each Stock form is clear somewhere. -/
theorem witness_stockForms : List.all
  [0x46008903f235a, 0x46000903f235e, 0x118903f2362, 0x118903f2366, 0x18000046118903f236a, 0x13000046118903f236e]
  (clearAt one) = true := by decide

/-- Whether a word is read as a form with the fields that stand in it. -/
def decodes (p : Nat × (Enc → Instr)) : Bool :=
  match decode (BitVec.ofNat 256 p.1) with
  | .ok i => decide (i = p.2 (encOf (BitVec.ofNat 256 p.1)))
  | .error _ => false

/-! Each form's word, written from the opcode map of spec 07 and the fields of spec 06, is read as that form. -/

theorem test_decodeScalar : List.all
  [(0x20000008903f2080, .smov), (0x20005008903f2084, .sadd), (0x20005008903f2088, .ssub),
   (0x20005008903f208c, .smul), (0x20005008903f2090, .smulh), (0x20005008903f2094, .sdiv),
   (0x20005008903f2098, .srem), (0x20005008903f209c, .sand), (0x20005008903f20a0, .sor), (0x20005008903f20a4, .sxor),
   (0x20005008903f20a8, .sshl), (0x20005008903f20ac, .sshr), (0x20005008903f20b0, .ssar),
   (0x20005008903f20b4, .smin), (0x20005008903f20b8, .smax), (0x20005008903f20bc, .scmp),
   (0x18020005008903f20c2, .ssel), (0x20005008903f20c4, .sbfe), (0x18020005008903f20ca, .sbfi),
   (0x20000008903f20cc, .spopc), (0x20000008903f20d0, .sclz)]
  decodes = true := by decide

theorem test_decodeMasks : List.all
  [(0x5008903f20d4, .mand), (0x5008903f20d8, .mor), (0x5008903f20dc, .mxor), (0x5008903f20e0, .mandn),
   (0x8903f20e4, .mpopc), (0x8903f20e8, .mffs), (0x5008903f20ec, .mbit), (0x60180c13f0100, .pand),
   (0x60180c13f0104, .por), (0x60180c13f0108, .pxor), (0x180c13f010c, .pnot), (0x180c13f0110, .pmov),
   (0x180903f2114, .ptom), (0x8c13f0118, .mtop), (0x180903f211c, .pany), (0x180903f2120, .pall)]
  decodes = true := by decide

theorem test_decodeVector : List.all
  [(0x40000008083f0140, .vmov), (0x20005008083f0144, .vadd), (0x20005008083f0148, .vsub),
   (0x20005008083f014c, .vaddc), (0x20005008083f0150, .vsubb), (0x20005008083f0154, .vmul),
   (0x20005008083f0158, .vmulh), (0x18020005008083f015e, .vmad), (0x1830005008083f0162, .vmadw),
   (0x20005008083f0164, .vabsd), (0x20005008083f0168, .vand), (0x20005008083f016c, .vor),
   (0x20005008083f0170, .vxor), (0x20000008083f0174, .vnot), (0x20005008083f0178, .vshl),
   (0x20005008083f017c, .vshr), (0x20005008083f0180, .vsar), (0x20005008083f0184, .vrot),
   (0x20005008083f0188, .vmin), (0x20005008083f018c, .vmax), (0x20000008083f0190, .vclz),
   (0x20000008083f0194, .vpopc), (0x20005008083f0198, .vbfe), (0x18020005008083f019e, .vbfi),
   (0x20005008083f01a0, .vcmp), (0x18040005008083f01a6, .vsel), (0x40000008083f01a8, .vcvt)]
  decodes = true := by decide

theorem test_decodeFloat : List.all
  [(0x40005008083f01c0, .fadd), (0x40005008083f01c4, .fsub), (0x40005008083f01c8, .fmul),
   (0x18040005008083f01ce, .ffma), (0x40005008083f01d0, .fmin), (0x40005008083f01d4, .fmax),
   (0x40005008083f01d8, .fcmp), (0x40000008083f01dc, .fclass), (0x40005008083f01e0, .fdiv),
   (0x40000008083f01e4, .fsqrt), (0x40000008083f01e8, .frcp), (0x40000008083f01ec, .frsq),
   (0x40000008083f01f0, .fexp2), (0x40000008083f01f4, .flog2), (0x40000008083f01f8, .fsin),
   (0x40000008083f01fc, .fcos), (0x40002008083f0200, .fcvt), (0x40000008083f0204, .frnd), (0x40005008083f0208, .fscl)]
  decodes = true := by decide

theorem test_decodeLanes : List.all
  [(0x20005008083f020c, .vshufIdx), (0x20005008083f060c, .vshufXor), (0x20005008083f0a0c, .vshufUp),
   (0x20005008083f0e0c, .vshufDown), (0x20005008083f0210, .vbcast), (0x40000008083f0214, .vredAdd),
   (0x40000008083f0614, .vredMin), (0x40000008083f0a14, .vredMax), (0x20000008083f0e14, .vredAnd),
   (0x20000008083f1214, .vredOr), (0x20000008083f1614, .vredXor), (0x40000008083f0218, .vscanAdd),
   (0x40000008083f0618, .vscanMin), (0x40000008083f0a18, .vscanMax), (0x20000008083f0e18, .vscanAnd),
   (0x20000008083f1218, .vscanOr), (0x20000008083f1618, .vscanXor), (0x20005008083f021c, .vrotl),
   (0x5180003f0220, .rvsend), (0x180083f0224, .rvrecv)]
  decodes = true := by decide

theorem test_decodeBigNumbers : List.all
  [(0x5008083f0240, .badd), (0x5008083f0244, .bsub), (0x8083f0248, .bneg), (0x5008903f024c, .bcmp),
   (0x60008083f0250, .bshl), (0x60008083f0254, .bshr), (0x5008083f0258, .bmull), (0x5008083f025c, .bmulh),
   (0x60008083f0260, .bmuls), (0x5008083f0264, .bdivqr), (0x60008963f0268, .blenTag), (0x60008083f0268, .blenResize),
   (0x8083f026c, .bnorm), (0x5118003f0270, .bspill), (0x46118083f0274, .bfill), (0x18000060118903f227a, .cres),
   (0x18120005008083f0282, .madd), (0x18120005008083f0286, .msub), (0x18120005008083f028a, .mmul),
   (0x18120005008083f028e, .mred)]
  decodes = true := by decide

theorem test_decodeControl : List.all
  [(0x3f2004, .nop), (0x3f2008, .exit), (0x60005000003f200c, .bra), (0x60005118003f2010, .brz),
   (0x60005118003f2014, .brnz), (0x60005000903f2018, .call), (0x8903f201c, .calli), (0x8003f2020, .ret),
   (0x8003f2024, .jmpi), (0x60005000003f2028, .skipz), (0x60005180903f202c, .divb), (0x118003f2030, .join),
   (0x3f2034, .yield)]
  decodes = true := by decide

theorem test_decodeSystem : List.all
  [(0x180003f2038, .bar), (0x180003f203c, .bara), (0x180003f2040, .barw), (0x8003f2044, .sleep),
   (0x8003f2048, .prio), (0x180903f204c, .getid), (0x100070000903f2051, .csrr), (0x100070008003f2055, .csrw),
   (0x100070008903f2059, .csrxSwap), (0x100070008903f2459, .csrxSet), (0x100070008903f2859, .csrxClear),
   (0x83f005c, .lpcr), (0x180003f2060, .trap), (0x3f2064, .eret), (0x180003f2068, .svc), (0x60180003f206c, .mark),
   (0x180903f2070, .tsrd)]
  decodes = true := by decide

theorem test_decodeMemory : List.all
  [(0x40005008083f0290, .ld), (0x40005008903f2294, .ldu), (0x40005008083f0298, .st), (0x4405118083f029c, .ldb),
   (0x4405118083f02a0, .stb), (0x18060405008083f02a6, .atomAdd), (0x18060405008083f06a6, .atomAnd),
   (0x18060405008083f0aa6, .atomOr), (0x18060405008083f0ea6, .atomXor), (0x18060405008083f12a6, .atomMin),
   (0x18060405008083f16a6, .atomMax), (0x18060405008083f1aa6, .atomExch), (0x18060405008083f1ea6, .atomCas),
   (0x13004605008083f02aa, .atomcCas), (0x1800605008083f06aa, .atomXadd), (0x4405008003f02ae, .redAdd),
   (0x4405008003f06ae, .redAnd), (0x4405008003f0aae, .redOr), (0x4405008003f0eae, .redXor),
   (0x4405008003f12ae, .redMin), (0x4405008003f16ae, .redMax), (0x60000118003f22b0, .waitc),
   (0x9C00010A003F22B0, .waitcScFence), (0x5008003f02b4, .pref), (0x5008003f02b8, .cflush), (0x5008003f02bc, .cinv)]
  decodes = true := by decide

theorem test_decodeCopies : List.all
  [(0x18000046118003f22c2, .xcopy), (0x18000060118003f22c6, .xgath), (0x118003f22c8, .xchain),
   (0x60118003f22ce, .xreg), (0x2183003f02d0, .qpush), (0x183053f22d4, .qpop), (0x46180903f22d8, .halloc),
   (0x118003f22dc, .hfree), (0x60580003f22e0, .rgive), (0x181003f22e4, .rclaim)]
  decodes = true := by decide

theorem test_decodeEngines : List.all
  [(0x20004000000000046118003f0302, .mxmac), (0x20004000000000046118903f0306, .mxpair), (0x60008083f0308, .mxrd),
   (0x5008003f030c, .mxwr), (0x180d83f2310, .mxz), (0x18000046118003f2316, .boomld), (0x13000046118903f231a, .bmul),
   (0x80000000000018000046118003f231e, .ntt), (0x80000000000018000046118003f2322, .intt),
   (0x46118903f2326, .kswitch), (0x118903f232a, .xcrt)]
  decodes = true := by decide

theorem test_decodeCueAndStock : List.all
  [(0x5008083f0340, .cuepush), (0x5000083f0344, .cuepop), (0x5008083f0348, .gainadd), (0x5008083f034c, .gainset),
   (0x180903f2350, .resadd), (0x180903f2354, .grow), (0x46008903f235a, .sklook), (0x46000903f235e, .skld),
   (0x118903f2362, .skref), (0x118903f2366, .skunref), (0x18000046118903f236a, .skcopy),
   (0x13000046118903f236e, .rootcas)]
  decodes = true := by decide

/-! Words that the specification writes out, with every field as its text gives it. -/

/-- An instruction without a guard, and without the chain bit (spec 06 R156). -/
def plain (u : Bool) (dst : Dst) (sa sb : Src) (mod : BitVec 12) (ext : Ext) : Enc :=
  { pg := 63, pn := false, ch := false, nw := false, u := u, dst := dst, sa := sa, sb := sb, mod := mod, ext := ext }

/-- The instruction read from a word. -/
def reads (w : BitVec 256) : Option Instr := (decode w).toOption

theorem test_fieldsVector :
    reads 0x12345678_2007020105038145
      = some (.vadd { plain false (.v 10) (.latch 1) .lit 0x200 (.lit 0x12345678) with pg := 3, ch := true })
    ∧ reads 0x20001C0904810144 = some (.vadd { plain false (.v 9) (.v 9) (.v 7) 0x200 .none with pg := 1 })
    ∧ reads 0x00060402023F0240 = some (.badd (plain false (.v 4) (.v 2) (.int 1) 0 .none))
    ∧ reads 0x6_200610050_23F028A = some (.mmul (plain false (.v 4) (.v 5) (.int 4) 0x200 (.ctl (.v 6) 0))) := by decide

theorem test_fieldsControl :
    (reads 0xFFFFE9818B3F202C).map (fun i => i.code.map fun c => (c.1, c.2.2.dst, c.2.2.sa, c.2.2.disp)) = some (some (0x0B, (.s 22 : Dst), (.int 1 : Src), (-24 : Int)))
    ∧ reads 0x9C00010A003F22B0 = some (.waitcScFence (plain true (.v 0) (.s 10) (.v 0) 0x9C0 .none))
    ∧ reads 0x00000012_0007012F003F2055 = some (.csrw (plain true (.v 0) (.s 47) .lit 0 (.lit 0x12))) := by decide

theorem test_fieldsMemory :
    reads 0x0946410401BF0290 = some (.ld (plain false (.v 3) (.s 4) (.int 16) 0x094 .none))
    ∧ reads 0x1144890091BF0298 = some (.st (plain false (.s 35) (.s 0) (.s 34) 0x114 .none))
    ∧ reads 0x4600000000000180_016479000A3F1EA6
      = some (.atomCas (plain false (.v 20) (.s 0) (.s 30) 0x016 (.ctl (.int 0) (280 * 2 ^ 44))))
    ∧ reads 0x6D00000000000150_0005310CAA3F236E
      = some (.rootcas (plain true (.s 84) (.s 12) (.s 76) 0 (.ctl (.s 80) (54 * 2 ^ 47 + 4 * 2 ^ 44)))) := by decide

theorem test_fieldsEngines :
    reads 0x4A40000200000000_00042840003F0302 = some (.mxmac (plain false (.v 0) (.v 64) (.s 10) 0 (.ctl (.v 0) 0x12900000800000)))
    ∧ reads 0x0000000000000100_00040114963F231A = some (.bmul (plain true (.s 44) (.s 20) (.s 0) 0 (.ctl (.s 0) 0)))
    ∧ reads 0x00004808083F0340 = some (.cuepush (plain false (.v 16) (.v 8) (.v 18) 0 .none))
    ∧ reads 0x4000000000001000000000000400000000000000C0C162842F2F
      = some (.lnest { stride := 1 + 2 ^ 50 + 2 ^ 100, extent := 3, abs := false, ds := false, bsc := false, drd := false,
                       bbase := 24, abase := 22, dbase := 20, etype := 4, eop := 0x0B }) := by decide

/-- A step, or an instruction, that answers a next state. -/
def isNext (o : Host.Outcome State Fault Refusal) : Bool :=
  match o with
  | .next _ => true
  | _ => false

/-- The choice of a step without a move laid down. -/
def chooses (s : State) (gi : Nat) : Bool :=
  match s.choice with
  | .issue k => k == gi
  | _ => false

/-- A NOP in the group's fetch block. -/
def atNop : State := one.withFetchWord 64 0x003F2004

/-- StepKeepsMemory, StepKeepsTeamMemory: a state in canonical form from which a step leads. -/
theorem witness_canonical : canonical one ∧ canonicalTeams one ∧ canonical atNop ∧ canonicalTeams atNop := by
  unfold canonical canonicalTeams; decide

theorem witness_step : isNext (step atNop) = true := by decide

/-- StepRunsDecoded: the device chooses a group that holds its block, and one that fetches it; and the agenda gives a quadrant its
turn. -/
theorem witness_issue : chooses atNop 0 = true ∧ atNop.agenda = [] ∧ (atNop.groups[0]?.map Group.hasBlock) = some true
    ∧ (atNop.groups[0]?.bind Group.nextInstr)
        = some (.ok (.nop (unguarded true (.v 0) (.v 0) (.v 0) 0 .none))) := by decide

/-- A NOP in memory, at the group's PC, and no block fetched. -/
def inMemory : State := { one with mem := array ++ [(65600, 0x04), (65601, 0x20), (65602, 0x3F)] ++ tables }

theorem witness_fetch : chooses inMemory 0 = true ∧ (inMemory.groups[0]?.map Group.hasBlock) = some false
    ∧ (({ inMemory with cur := 0 } : State).fetchBlock 0).2 = true
    ∧ (({ inMemory with cur := 0 } : State).fetchBlock 0).1.groups[0]?.bind Group.nextInstr
        = some (.ok (.nop (unguarded true (.v 0) (.v 0) (.v 0) 0 .none)))
    ∧ isNext (step inMemory) = true := by decide

theorem witness_quadrant :
    (({ atNop with agenda := [.quadrant 0 0] } : State).pick 0 0).map (fun x => x.1) = some 0 := by decide

/-- The moves of other agents: laid down, due, chosen. -/
theorem witness_moves : encode .epoch = none
    ∧ ({ dev with epochBit := true } : State).dueMove = some (.epoch, .nothing)
    ∧ (match ({ dev with tlbDone := false, cycle := 15, groups := [] } : State).choice with
      | .own m => m == (.tlbInvalidateDone, .nothing)
      | _ => false) = true
    ∧ isNext (exec .tlbInvalidateDone { dev with tlbDone := false, cycle := 15 }) = true := by decide

/-- WaitsOrTraps: a form that waits, here for a held register; one before which a fault is due; one that is illegal; one that no lane
runs; one with a marked source. -/
def vadd : Nat := 0x2000_1C09_04BF_0144

theorem witness_waitsOrTraps :
    let busy := one.modGroup 0 fun g => { g with ops := [{ opOf 0 (some .ld) .plain with hold := [.v 7] }] }
    let owed := one.modGroup 0 fun g => { g with due := [{ kind := 1, addr := 64 }] }
    let bad := issueOf one (vadd + 2 ^ 39)
    let off := issueOf one (vadd - 0x3E0000)
    let cold := one.modGroup 0 fun g => { g with vregs := g.vregs.set 7 { val := List.replicate 16 0, mark := 1, tag := 16 } }
    stallWhy (issueOf busy vadd) busy ≠ 0
    ∧ stallWhy (issueOf owed vadd) owed = 0 ∧ (only owed).due = [{ kind := 1, addr := 64 }]
    ∧ bad.issues one = true ∧ (firstWhy (issueWhy bad one)).isSome = true
    ∧ off.issues one = true ∧ off.legal one = true ∧ off.runs = false
    ∧ (issueOf cold vadd).issues cold = true ∧ (issueOf cold vadd).legal cold = true ∧ (issueOf cold vadd).runs = true
    ∧ uninit (issueOf cold vadd) = some 7 := by decide

/-- A loop nest of one element, all in Stage. -/
def nest (et : BitVec 5) : NestEnc :=
  { stride := 0, extent := 0x001001001001001, abs := true, ds := true, bsc := false, drd := false, bbase := 24, abase := 26, dbase := 28,
    etype := et, eop := 0 }

theorem witness_nests :
    nestStall 0 (only one) (nest 4) one = 0 ∧ nestIssueWhy (only one) (nest 4) = [] ∧ (only one).due = []
    ∧ (firstWhy (nestIssueWhy (only one) (nest 31))).isSome = true
    ∧ (let busy := one.modGroup 0 fun g => { g with ops := (List.range 255).map fun k => opOf k (some .ln) .plain }
       nestStall 0 (only busy) (nest 4) busy ≠ 0) := by decide

/-- RefusedEncodings: a word of a reserved OPC, a reserved SUB, a length that the OPC excludes. -/
theorem witness_refused :
    decode 0x3F2078 = .ok (.reservedOpc 0x3F2078) ∧ pcWhy (only one).pc (ilen 0x3F2078) = []
    ∧ (decodeBytes (leBytes 8 0x3F3C44)).toOption = none
    ∧ (one.withFetchWord 64 0x3F3C44).groups[0]?.bind Group.nextInstr = some (.error .reservedSub)
    ∧ (one.withFetchWord 64 0x3F2007).groups[0]?.bind Group.nextInstr = some (.error .badLength)
    ∧ chooses (one.withFetchWord 64 0x3F3C44) 0 = true ∧ chooses (one.withFetchWord 64 0x3F2007) 0 = true
    ∧ pcWhy (only (one.withFetchWord 64 0x3F3C44)).pc (ilen 0x3F3C44) = []
    ∧ pcWhy (only (one.withFetchWord 64 0x3F2007)).pc (ilen 0x3F2007) = [] := by decide

/-- TakesTraps: below trap level with a handler; at trap level; without a handler, a trap and an SVC. -/
theorem witness_traps :
    let bare := one.modGroup 0 fun g => { g with xbase := 0 }
    let nested := one.modGroup 0 fun g => { g with trap := true }
    (only one).trap = false ∧ (only one).xbase ≠ 0 ∧ (only nested).trap = true ∧ (only bare).xbase = 0 ∧ (only bare).trap = false := by
  decide

/-- CompletedForms, ResultLanes: the group at the issue is there; destinations of each kind; the state's exec lies in its running
lanes. -/
theorem witness_results :
    let x := issueOf one vadd
    one.groups[x.gi]? = some (only one) ∧ x.e.nw = false ∧ x.g.width ≤ 64 ∧ x.writers ≠ 0 ∧ x.e.dst = .v 9
    ∧ (∀ k ∈ [9, 10], (x.g.vregs[k]?).map (fun r => r.val.length) = some x.g.width)
    ∧ x.g.sregs.length = 128 ∧ x.g.preds.length = 48 ∧ (only one).exec &&& ~~~(only one).running = 0 := by decide

/-- Switch: a group whose lanes 0 and 1 are parked, at two addresses, of which one has had its turn. -/
def split : Group := { only one with
  parked := 3, exec := 0xFFFC, stored := 3, served := 1, lanePC := [65600, 65640] ++ List.replicate 14 0 }

theorem witness_switch :
    let run := split.running
    let others : Mask := 3 &&& split.parked &&& ~~~run
    let cand : Mask := if others = 0 then run else others
    let srv : Mask := split.served ||| run
    split.width ≤ 64 ∧ split.lanePC.length = split.width
    ∧ ∃ i, i < 16 ∧ (decide (i < split.width) && cand.getLsbD i && (!srv.getLsbD i || (cand &&& ~~~srv = 0))) = true := by decide

/-- SelectionOrder: a selected group without a chain, and one with. -/
theorem witness_selection :
    let linked := one.modGroup 0 fun g => { g with chain := some { pos := 1, first := 65600, hist := [.none], reads := [] } }
    (one.pick 0 0).map (fun x => x.1) = some 0 ∧ (∀ h ∈ one.groups, h.chain = none)
    ∧ (linked.pick 0 0).map (fun x => x.1) = some 0 ∧ linked.ready 0 (only linked) = true ∧ (only linked).chain.isSome = true := by
  decide

/-- WideMultiplyAdd: VMADW of i64. -/
theorem witness_wideMultiplyAdd : (clearAt one 0x1830005008083f0162 && decide ((issueOf one 0x1830005008083f0162).e.ty = 6)) = true := by
  decide

/-- VectorMoves: a selection into a scalar register from a marked register and from an unmarked one. -/
theorem witness_vectorSelect :
    let f (e : Enc) : Enc := { e with dst := .s 32, u := true }
    let s := withV one 20 cold
    (issueBy s 0x18040005008083f01a6 f).clear s = true ∧ (issueBy s 0x18040005008083f01a6 f).selMarked = some 20
    ∧ (issueBy one 0x18040005008083f01a6 f).clear one = true ∧ (issueBy one 0x18040005008083f01a6 f).selMarked = none
    ∧ (issueOf one 0x18040005008083f01a6).e.dst = .v 16 := by decide

/-- BigNumberForms: sources that are marked; a result that is too long; one that is not; and with NW. -/
theorem witness_bigNumbers :
    let w := 0x5008083f0240
    let big := withV one 8 (all 0x7FFFFFFF)
    let marked := withV one 8 cold
    let x := issueBy big w fun e => { e with sb := .v 8 }
    (issueOf marked w).clear marked = true ∧ (issueOf marked w).bigMark [.v 8, .v 20] = some 8
    ∧ x.clear big = true ∧ x.bigMark [.v 8, .v 8] = none
    ∧ (only big).width + 1 ≤ max 16 (leastLen ((big.big x (.v 8)).1 + (big.big x (.v 8)).1))
    ∧ (issueOf one w).bigMark [.v 8, .v 20] = none ∧ (issueOf one w).e.dst = .v 16
    ∧ max 16 (leastLen ((one.big (issueOf one w) (.v 8)).1 + (one.big (issueOf one w) (.v 20)).1)) ≤ (only one).width
    ∧ (issueBy one w fun e => { e with nw := true }).clear one = true
    ∧ (issueOf one 0x5008903f024c).clear one = true ∧ (issueOf one 0x5008903f024c).bigMark [.v 8, .v 20] = none := by decide

/-- BLEN with a scalar destination. -/
theorem witness_blenTag :
    let x := issueBy one 0x60008083f0268 fun e => { e with dst := .s 32, sb := .v 0 }
    x.clear one = true ∧ x.e.sa = .v 8 ∧ x.bigMark [x.e.sa] = none := by decide

/-- BDIVQR: a divisor of 0; one that is too long; a quotient that is too long; a division. -/
theorem witness_bigDivision :
    let w := 0x5008083f0264
    let zero := withV one 20 (all 0)
    let wide := withV one 20 { all 0 with tag := 17 }
    let nonzero := withV (one.modGroup 0 fun g => { g with spwEn := true, spwBase := 0 }) 20 { all 1 with tag := 17 }
    let long := withV one 8 { vreg 8 with tag := 17 }
    (issueOf one w).clear one = true ∧ (issueOf one w).e.dst = .v 16 ∧ (issueOf one w).e.nw = false
    ∧ (issueOf one w).bigMark [.v 8, .v 20] = none
    ∧ (zero.big (issueOf zero w) (.v 20)).1 = 0 ∧ (issueOf zero w).clear zero = true
    ∧ (nonzero.big (issueOf nonzero w) (.v 20)).1 ≠ 0 ∧ (nonzero.big (issueOf nonzero w) (.v 20)).2 = 17
    ∧ (issueOf nonzero w).clear nonzero = true ∧ (issueOf nonzero w).bigMark [.v 8, .v 20] = none
    ∧ (issueOf long w).clear long = true ∧ (long.big (issueOf long w) (.v 8)).2 = 17 ∧ (only long).spwEn = false
    ∧ (one.big (issueOf one w) (.v 20)).1 ≠ 0 ∧ (one.big (issueOf one w) (.v 20)).2 ≤ 16
    ∧ max (one.big (issueOf one w) (.v 8)).2
        (leastLen ((one.big (issueOf one w) (.v 8)).1.tdiv (one.big (issueOf one w) (.v 20)).1)) ≤ 16
    ∧ (wide.big (issueOf wide w) (.v 20)).2 = 17 := by decide

/-- What a resolution gives. -/
def placed (r : State × Except Flt Place) : Bool :=
  match r.2 with
  | .ok _ => true
  | .error _ => false

/-- BigMemory: a number spilled; one filled; a header that a reader rejects; an array that is too long. -/
theorem witness_bigMemory :
    let w := 0x5118003f0270
    let v := 0x46118083f0274
    let x := issueOf one w
    let y := issueOf one v
    let long := withS one 24 512
    x.clear one = true ∧ x.e.sb = .v 20 ∧ (x.word x.e.sa x.ul).toNat % 16 = 0
    ∧ (one.placeRange 0 (only one) false .store .s (256 + 16) (4 * (one.limbsOf (only one) 20).length)).2.2 = none
    ∧ placed (one.resolve 0 (only one) false .store .s 256 16) = true
    ∧ y.clear one = true ∧ y.e.dst = .v 16 ∧ y.e.nw = false ∧ (∃ k : Fin 128, y.e.sb = .s k)
    ∧ (y.word y.e.sa y.ul).toNat = 256 ∧ placed (one.resolve 0 (only one) false .load .s 256 16) = true
    ∧ (hdrOf (one.readAt (.stage 0 false 0 256) 16)).bad = false
    ∧ (only one).tooLong (hdrOf (one.readAt (.stage 0 false 0 256) 16)).len.toNat = false
    ∧ (match (one.readRange 0 (only one) false .load .s (256 + 16) 4).2 with | .ok bs => decide (bs = [5, 0, 0, 0]) | _ => false) = true
    ∧ (issueOf long v).clear long = true ∧ (hdrOf [2, 0, 0, 0, 1, 0, 0, 0, 0, 0, 0, 0, 0, 0, 0, 0]).bad = true
    ∧ (hdrOf [20, 0, 0, 0, 20, 0, 0, 0, 0, 0, 0, 0, 0, 0, 0, 0]).bad = false ∧ (only one).tooLong 20 = true := by decide

/-- Copies: every form of the copy and transform engines with aligned addresses, and with an address that is not. -/
def aligns (n : Nat) (as : Iss → List W64) (s : State) (w : Nat) : Bool :=
  clearAt s w && (as (issueOf s w)).all fun a => a.toNat % n = 0
def misaligns (n : Nat) (as : Iss → List W64) (s : State) (w : Nat) : Bool :=
  clearAt s w && ((as (issueOf s w)).find? fun a => a.toNat % n != 0).isSome

/-- A group with a modulus, for the transforms. -/
def modular17 (s : State) : State := s.modGroup 0 fun g => { g with pform := 0x17DB }

theorem witness_copies :
    let xcopy (x : Iss) : List W64 := [addrIn x (spaceOf (x.e.ctlF 127 125)) x.e.sa, addrIn x (spaceOf (x.e.ctlF 124 122)) x.e.sb]
    let boomld (x : Iss) : List W64 :=
      [(x.word x.e.sa x.ul).setWidth 64, addrIn x (if x.e.ctlF 127 127 = 1 then .s else .g) x.e.sb]
    let xgath (x : Iss) : List W64 := [addrIn x (if x.e.ctlF 127 127 = 1 then .s else .g) x.e.sa]
    let record (x : Iss) : List W64 := [x.pair x.e.sa x.ul]
    let ntt (x : Iss) : List W64 := [addrIn x (side x 122) x.e.sa, addrIn x (side x 121) x.e.sb]
    let skcopy (x : Iss) : List W64 := [addrIn x (side x 127) x.e.sa]
    let t (n : Nat) (as : Iss → List W64) (s s' : State) (w : Nat) : Bool := aligns n as s w && misaligns n as s' w
    (t 4 xcopy one odd 0x18000046118003f22c2 && t 4 boomld one odd 0x18000046118003f2316
      && t 64 xgath one odd 0x18000060118003f22c6 && t 64 record one odd 0x118003f22c8 && t 64 record one odd 0x118903f232a
      && t 256 skcopy one odd 0x18000046118903f236a
      && t 8 ntt (modular17 one) (modular17 odd) 0x80000000000018000046118003f231e
      && t 8 ntt (modular17 one) (modular17 odd) 0x80000000000018000046118003f2322) = true := by decide

/-- XREG: an address that is not aligned; a group that has exited; a copy out and a copy in. -/
theorem witness_registers :
    let w := 0x60118003f22ce
    let a (s : State) : Nat := (addrIn (issueOf s w) (spaceOf ((issueOf s w).e.ctlF 118 116)) (issueOf s w).e.sa).toNat
    let m (s : State) : Option Nat := s.mate 0 (only s) ((issueOf s w).word (issueOf s w).e.sb (issueOf s w).ul)
    let exited := one.modGroup 0 fun g => { g with gone := true }
    let outw := w + 2 ^ 119
    clearAt odd w = true ∧ a odd % 4 ≠ 0 ∧ clearAt one w = true ∧ a one % 4 = 0 ∧ m one = some 0 ∧ (only one).gone = false
    ∧ (issueOf one w).e.ctlF 119 119 = 0 ∧ clearAt one outw = true ∧ (issueOf one outw).e.ctlF 119 119 = 1
    ∧ clearAt exited w = true ∧ m exited = some 0 ∧ (only exited).gone = true := by decide

/-- TeamResources, Barriers: the group's team is there. -/
theorem witness_team : one.teamIdx (only one).grid (only one).team = some 0
    ∧ (∃ h ∈ one.groups, h.live = true ∧ h.grid = (only one).grid ∧ h.team = (only one).team ∧ h.gone = false) := by decide

/-- BranchesAndCalls: a RET without an inline call under way, and one that ends a call. -/
def called1 : State :=
  let s := one.modGroup 0 fun g => { g with
    sregs := (g.sregs.set 24 0x10048).set 25 0
    inline := [{ at_ := 0x10040, exec := 0xFFFF, lanes := 3 }] }
  { s with mem := array ++ [(0x10040, 0x40), (0x10041, 3), (0x10042, 0x3F), (0x10043, 0x08), (0x10044, 0x08), (0x10045, 0x50)] ++ tables }

theorem witness_returns :
    let x := issueBy called1 0x8003f2020 fun e => { e with sa := .s 24 }
    x.clear called1 = true ∧ x.pair x.e.sa x.ul = nextPc 0x10040 8
    ∧ (match called1.resolve 0 (only called1) false .fetch .g 0x10040 8 with
      | (s1, .ok p) => decide (encOf (BitVec.ofNat 256 (leNat (s1.readAt p 8)))
          = { pg := 63, pn := false, ch := false, nw := false, u := false, dst := .v 16, sa := .v 8, sb := .v 20, mod := 0, ext := .none })
      | _ => false) = true
    ∧ (only one).inline = [] := by decide

/-- NopAndYield: a YIELD with a guard. -/
theorem witness_guardedYield :
    let x := issueBy one 0x3f2034 fun e => { e with pg := 1 }
    x.issues one = true ∧ x.e.pg.val ≠ 63 := by decide

/-- Divergence: an EXIT after which lanes run, one after which only parked lanes are left, one after which none is. -/
theorem witness_exit :
    let after (s : State) : Group := { only s with exited := (only s).exited ||| (only s).exec, exec := 0 }
    let some := one.modGroup 0 fun g => { g with exec := 3 }
    let rest := one.modGroup 0 fun g => { g with exec := 0xFFFC, parked := 3, stored := 3 }
    clearAt some 0x3f2008 = true ∧ (after some).running ≠ 0
    ∧ clearAt rest 0x3f2008 = true ∧ (after rest).running = 0 ∧ (after rest).parked ≠ 0
    ∧ clearAt one 0x3f2008 = true ∧ (after one).running = 0 ∧ (after one).parked = 0 := by decide

/-- GroupForms: a priority that is none; LPCR. -/
theorem witness_groupForms2 :
    let x := issueBy one 0x8003f2048 fun e => { e with sa := .int 4 }
    let y := issueOf one 0x83f005c
    x.issues one = true ∧ 3 < valueA x
    ∧ y.clear one = true ∧ y.e.dst = .v 16 ∧ y.e.nw = false ∧ maskOf (only one).width y.guard ≠ 0
    ∧ (let z := issueBy one 0x100070008003f2055 fun e => { e with ext := .lit 0x10, sa := .int 3 }
       z.clear one = true ∧ z.e.csr = 0x010) := by decide

/-- Csrs: the group is there after the write; its counters are eight; its grid is known. -/
theorem witness_csrs :
    let x := issueBy one 0x00000014_0007_0129_943F_2459 fun e => { e with ext := .lit 0x012 }
    x.clear one = true ∧ ((csrWritten (fun a b => a ||| b) x one).groups[0]?).isSome = true
    ∧ (only one).pmc.length = 8 ∧ (only one).pmsel.length = 8 ∧ (one.grid? (only one).grid).isSome = true := by decide

/-- SystemForms: an ERET at trap level. -/
def trapped1 : State := one.modGroup 0 fun g => { g with trap := true, xrpc := 65608 }
theorem witness_eret : clearAt trapped1 0x3f2064 = true ∧ (only one).trap = false := by decide

/-- LoadsAndStores, Atomics, MemoryFrames: what the accesses of a form come to: aligned, with places in one line each; misaligned; a fault;
no translation; no key; no walker; a budget that is used up. -/
def kind (s : State) (k : AccK) (n : Enc → Nat) (sp : Enc → Space) (w : Nat) : Nat :=
  let x := issueOf s w
  if (misaligned x.addrs (n x.e)).isSome then 1
  else match (s.resolveAll 0 (only s) k (sp x.e) (n x.e) x.addrs) with
    | (s1, .ok ps) => if s1.held 0 (ps.filterMap fun p => p.2.devBytes (n x.e)) then 7
      else if ps.all fun p => (match p.2 with | .dev pa _ => decide (pa % 128 + n x.e ≤ 128) | _ => true) then 2 else 0
    | (_, .error (.mem _ _)) => 3
    | (_, .error (.absent _ _)) => 4
    | (_, .error (.noKey _)) => 5
    | (_, .error (.wait _ _)) => 6

def allWays (k : AccK) (n : Enc → Nat) (sp : Enc → Space) (w : Nat) : Bool :=
  [one, odd, noAccess, noPage, noKey, busy, spent].all (clearAt · w) && kind one k n sp w = 2 && kind noAccess k n sp w = 3
    && kind noPage k n sp w = 4 && kind noKey k n sp w = 5 && kind busy k n sp w = 6 && kind spent k n sp w = 7
    && (n (issueOf odd w).e = 1 || kind odd k n sp w = 1)

theorem witness_loads : List.all
   [0x405008083f0290, 0x405008903f2294]
  (allWays .load esz spc) = true := by decide +kernel

theorem witness_stores : List.all
   [0x405008083f0298]
  (allWays .store esz spc) = true := by decide +kernel

theorem witness_cacheForms : List.all
   [0x5008003f02b8, 0x5008003f02bc]
  (allWays .store (fun _ => 1) (fun _ => .g)) = true := by decide +kernel

theorem witness_atoms : List.all
   [0x18020405008083f02a6, 0x18020405008083f06a6, 0x18020405008083f0aa6, 0x18020405008083f0ea6,
    0x18020405008083f12a6, 0x18020405008083f16a6, 0x18020405008083f1aa6, 0x18020405008083f1ea6]
  (allWays .atomic esz spc) = true := by decide +kernel

theorem witness_reds : List.all
   [0x4405008003f02ae, 0x4405008003f06ae, 0x4405008003f0aae,
    0x4405008003f0eae, 0x4405008003f12ae, 0x4405008003f16ae]
  (allWays .atomic esz spc) = true := by decide +kernel

theorem witness_cells : List.all
   [0x13004605008083f02aa, 0x1804605008083f06aa]
  (allWays .atomic (fun _ => 16) spc) = true := by decide +kernel


/-- Whether bytes can be read. -/
def readable (r : State × Except Flt (List Byte)) : Bool :=
  match r.2 with
  | .ok _ => true
  | .error _ => false

/-- LoadsAndStores: an array loaded; a header that a reader rejects; an array that is too long; one stored; a WAITC. -/
def longArray : State := { one with mem := [(256, 20), (260, 20)] ++ tables }

theorem witness_arrays :
    let w := 0x4405118083f029c
    let x := issueBy one w fun e => { e with sb := .int 0 }
    let y := issueBy one 0x4405118083f02a0 fun e => { e with sb := .int 0 }
    let zero := withS one 24 512
    x.clear one = true ∧ x.e.dst = .v 16 ∧ x.e.nw = false ∧ arrayAddr x = 256 ∧ spc x.e = .g
    ∧ (match (State.placesAt (one.settlePoison 0 .load) 0 (only one) .load .g 256 16).2 with
      | .ok ps => decide (ps = [(.dev 256 none, 16)])
      | _ => false) = true
    ∧ (hdrOf (one.readAt (.dev 256 none) 16)).bad = false ∧ (only one).tooLong (hdrOf (one.readAt (.dev 256 none) 16)).len.toNat = false
    ∧ readable (one.readRange 0 (only one) false .load .g 272 4) = true
    ∧ (hdrOf (longArray.readAt (.dev 256 none) 16)).bad = false
    ∧ (only longArray).tooLong (hdrOf (longArray.readAt (.dev 256 none) 16)).len.toNat = true
    ∧ arrayAddr (issueBy zero w fun e => { e with sb := .int 0 }) = 512
    ∧ y.clear one = true ∧ y.e.dst = .v 16 ∧ arrayAddr y = 256
    ∧ (one.placeRange 0 (only one) false .store .g 272 (4 * (one.limbsOf (only one) 16).length)).2.2 = none
    ∧ placed (one.resolve 0 (only one) false .store .g 256 16) = true := by decide

/-- A header whose length exceeds its capacity. -/
theorem witness_badHeader :
    let s := { one with mem := [(256, 2), (260, 1)] ++ tables }
    (hdrOf (State.readAt s (.dev 256 none) 16)).bad = true ∧ placed (State.resolve s 0 (only s) false .load .g 256 16) = true
    ∧ (issueBy s 0x4405118083f029c fun e => { e with sb := .int 0 }).clear s = true := by decide

theorem witness_waitc :
    let x := issueOf one 0x60000118003f22b0
    x.legal one = true ∧ x.runs = true ∧ x.e.wcls ≤ 9 ∧ x.issues one = true
    ∧ clearAt one 0x9C00_010B_003F_22B0 = true
    ∧ (issueOf one 0x9C00_010B_003F_22B0).e.wsc = true := by decide

/-- MatrixEngine: a marked register of A; an address that is not a multiple of 32; one of scales that is none of 16; an operation
that is queued; tiles that are read, written and cleared. -/
def wideRegs : State := one.modGroup 0 fun g => { g with vregs := (List.range 72).map vreg }

theorem witness_matrixOperands :
    let w := 0x4A40_0002_0000_0000_0004_2840_003F_0302
    let f (e : Enc) : Enc := { e with sa := .v 8, sb := .s 24 }
    let marks (s : State) (x : Iss) : Option Nat := x.aRegs.find? fun k => (lanesOf x.qual (only s).width).any fun i => (only s).marked k i
    let bad (x : Iss) : Option W64 := [x.mxArgs.aAddr.setWidth 64, x.mxArgs.bAddr.setWidth 64].find? fun v => v.toNat % 32 != 0
    let s1 := withV wideRegs 8 cold
    let s2 := withS wideRegs 24 8
    let s3 := withS wideRegs 30 8
    let g (e : Enc) : Enc := { e with sa := .v 8, sb := .s 24, ext := match e.ext with
      | .ctl _ c => .ctl (.s 30) (c ||| 0x200000)
      | x => x }
    (issueBy s1 w f).clear s1 = true ∧ marks s1 (issueBy s1 w f) = some 8
    ∧ (issueBy s2 w f).clear s2 = true ∧ marks s2 (issueBy s2 w f) = none ∧ (bad (issueBy s2 w f)).isSome = true
    ∧ (issueBy wideRegs w f).clear wideRegs = true ∧ marks wideRegs (issueBy wideRegs w f) = none
    ∧ bad (issueBy wideRegs w f) = none ∧ (issueBy wideRegs w f).mxArgs.scAddr.toNat % 16 = 0
    ∧ (issueBy s3 w g).clear s3 = true ∧ (issueBy s3 w g).mxArgs.scAddr.toNat % 16 ≠ 0 ∧ bad (issueBy s3 w g) = none := by decide

theorem witness_tiles :
    (clearAt one 0x60008083f0308 && (issueOf one 0x60008083f0308).readers.all fun i =>
      ((issueOf one 0x60008083f0308).word (issueOf one 0x60008083f0308).e.sa i).toNat % 4 = 0) = true
    ∧ (clearAt one 0x5008003f030c && (issueOf one 0x5008003f030c).readers.all fun i =>
      ((issueOf one 0x5008003f030c).word (issueOf one 0x5008003f030c).e.sa i).toNat % 4 = 0) = true
    ∧ clearAt one 0x180d83f2310 = true ∧ (issueOf one 0x180d83f2310).e.dst = .a 0 := by decide

/-- MXPAIR in a pair of groups. -/
def inPair : State := { one with teams := one.teams.map fun t => { t with pair := true } }
theorem witness_mxpair :
    let x := issueOf inPair 0x20004000000000046118903f0306
    x.clear inPair = true ∧ x.aRegs = [] ∧ x.mxArgs.aAddr.toNat % 32 = 0 ∧ x.mxArgs.bAddr.toNat % 32 = 0
    ∧ x.mxArgs.scAddr.toNat % 16 = 0 := by decide

/-- How many ranges a form reads at its issue; 10 where one faults, 11 where their class is held. -/
def readsAt (s : State) (x : Iss) (rs : List Rng) : Nat :=
  match (s.settlePoison 0 .load).issuePlaces x rs with
  | (s1, .ok ps) => if s1.held 0 (devRanges ps.flatten) then 11 else ps.length
  | (_, .error _) => 10

/-- NumberEngines: CRES at an aligned array; BMUL of arrays that can be read; KSWITCH with equal and with unequal key numbers. -/
theorem witness_engines :
    let c := issueOf one 0x18000060118903f227a
    let b := issueOf one 0x13000046118903f231a
    let k := issueOf one 0x46118903f2326
    let other := { one with mem := [(256, 7)] ++ tables }
    let bytes (r : State × Except Flt (List Byte)) : List Byte := match r.2 with
      | .ok bs => bs
      | .error _ => []
    c.clear one = true ∧ (addrIn c (side c 124) c.e.sa).toNat % 16 = 0
    ∧ b.clear one = true ∧ (addrIn b (side b 127) b.e.sa).toNat % 16 = 0 ∧ (addrIn b (side b 126) b.e.sb).toNat % 16 = 0
    ∧ (addrIn b (side b 125) b.e.sc).toNat % 16 = 0
    ∧ readsAt one b [(side b 127, addrIn b (side b 127) b.e.sa, 16), (side b 126, addrIn b (side b 126) b.e.sb, 16),
        (side b 125, addrIn b (side b 125) b.e.sc, 16)] = 3
    ∧ readsAt one k [(.s, (k.word k.e.sa k.ul).setWidth 64, 64), (.g, k.pair k.e.sb k.ul, 64)] = 2
    ∧ readsAt noAccess (issueOf noAccess 0x46118903f2326) [(.g, 256, 64)] = 10 ∧ readsAt spent (issueOf spent 0x46118903f2326) [(.g, 256, 64)] = 11
    ∧ clearAt noAccess 0x46118903f2326 = true ∧ clearAt spent 0x46118903f2326 = true
    ∧ k.clear one = true ∧ (k.word k.e.sa k.ul).toNat % 64 = 0 ∧ (k.pair k.e.sb k.ul).toNat % 64 = 0
    ∧ wordAt (bytes (one.readRange 0 (only one) false .load .s 256 64)) 1 = 17
    ∧ wordAt (bytes (one.readRange 0 (only one) false .load .g 256 64)) 0 = 1
    ∧ (issueOf other 0x46118903f2326).clear other = true
    ∧ wordAt (bytes (State.readRange other 0 (only one) false .load .g 256 64)) 0 = 7 := by decide

/-- The key number that the ciphertext of Stage carries. -/
theorem witness_sameKey :
    let s := { one with mem := [(256, 17)] ++ tables }
    (issueOf s 0x46118903f2326).clear s = true
    ∧ (match (State.readRange s 0 (only one) false .load .g 256 64).2 with
      | .ok bs => decide (wordAt bs 0 = 17)
      | _ => false) = true := by decide

/-- The grid as owner of the Cue heap of die 0, with CUESTATE, TOL and the place of the unrun area. -/
def heap (state : BitVec 2) (unrun : W64) (tol : W64) (shards : List Shard) (s : State) : State :=
  { s with
    cue := { Cue.reset with owner := some 1, dies := [0], shards := shards }
    grids := s.grids.map fun r => { r with cuestate := state, tol := tol, packet := { r.packet with unrun := unrun, unruncap := 64 } } }

/-- Shards of which the first of die 0 holds the entries. -/
def holding (es : List CueEntry) : List Shard := { entries := es, gens := [] } :: List.replicate 31 { entries := [], gens := [] }

/-- An entry of a gain, pushed at a stamp. -/
def entryOf (slot stamp : Nat) (gain : W32) : CueEntry := { slot := slot, gen := 2, stamp := stamp, gain := gain, rest := List.replicate 7 0 }

/-- CueHeap: a marked entry register; a push to an unrun area that faults; pushes without a full die. -/
theorem witness_pushes :
    let w := 0x5008083f0340
    let marked := withV one 9 cold
    let faulty := heap 1 (2 ^ 40) 0 (holding []) (one.modGroup 0 fun g => { g with task := true })
    let x := issueOf faulty w
    let full (r : State × List Nat × Bool) : Nat := if r.2.2 then r.2.1.length else 1000
    (issueOf marked w).clear marked = true ∧ (issueOf marked w).entryMark = some 9
    ∧ x.clear faulty = true ∧ x.entryMark = none ∧ full ((cueCounted x faulty).pushLanes x x.readers) = 1000
    ∧ (issueOf one w).clear one = true ∧ full ((cueCounted (issueOf one w) one).pushLanes (issueOf one w) (issueOf one w).readers) = 0 := by
  decide +kernel

/-- A die that is full. -/
def fullDie : State := heap 0 0 0 (List.replicate 32 { entries := List.replicate 16384 (entryOf 0 1 1), gens := [] }) one

theorem pushLanes_full (s : State) (x : Iss) (l : List Nat) (h : ∀ i, s.pushLane x i = some (s, true)) :
    s.pushLanes x l = (s, l, true) := by
  induction l with
  | nil => rfl
  | cons i l ih => simp only [State.pushLanes, h, ih, if_true]

theorem roomFor_full (sh : Shard) (c : Cue) (die home : Nat) (hd : die = 0) (hh : home < 8) (hl : 16384 ≤ sh.entries.length)
    (hs : c.shards = List.replicate 32 sh) : c.roomFor die home = none := by
  subst hd
  have he : ∀ k < 8, c.entries 0 k = sh.entries := by
    intro k hk
    rw [Cue.entries, hs, List.getElem?_replicate, if_pos (by omega)]
    rfl
  rw [Cue.roomFor, List.find?_eq_none]
  intro k hk
  have : k < 8 := by
    rcases List.mem_cons.1 hk with rfl | h
    · exact hh
    · exact List.mem_range.1 h
  rw [he k this]
  simp only [shardSlots]
  exact fun h => Nat.not_lt.2 hl (of_decide_eq_true h)

/-- Every lane finds the die full. -/
theorem witness_fullDie :
    let x := issueOf fullDie 0x5008083f0340
    (cueCounted x fullDie).pushLanes x [0, 1] = (cueCounted x fullDie, [0, 1], true)
    ∧ (only fullDie).inline.length < (only fullDie).cdepth.toNat
    ∧ ({ only fullDie with cdepth := 0 } : Group).cdepth.toNat ≤ (only fullDie).inline.length := by
  refine ⟨pushLanes_full _ _ _ fun i => ?_, by decide, by decide⟩
  have hr := roomFor_full { entries := List.replicate 16384 (entryOf 0 1 1), gens := [] }
    (cueCounted (issueOf fullDie 0x5008083f0340) fullDie).cue (dieOf 0) (homeShard 0) rfl (by decide) (by simp) rfl
  have h0 : (issueOf fullDie 0x5008083f0340).g.core = 0 := by decide
  have h1 : (cueCounted (issueOf fullDie 0x5008083f0340) fullDie).ownsCue (issueOf fullDie 0x5008083f0340).g.grid = true := by decide
  have h2 : (cueCounted (issueOf fullDie 0x5008083f0340) fullDie).cueState (issueOf fullDie 0x5008083f0340).g.grid = 0 := by decide
  simp only [State.pushLane, State.cuePlace, h0, h1, h2, hr]
  rfl

/-- Pops that are answered at once, and pops that wait. -/
theorem witness_pops :
    let w := 0x5000083f0344
    let empty := heap 0 0 0 (holding []) one
    let waits (s : State) : Nat :=
      let x := issueOf s w
      let s0 := s.modGroup 0 fun h => { h with task := h.task && (only s).cueLeft != 0, cueLeft := 0 }
      (s0.popLanes x (x.op (some .cq) .plain [] x.popHold [] .started) x.readers [] false).1.cue.pops.length
    (issueOf one w).clear one = true ∧ waits one = 0 ∧ (issueOf empty w).clear empty = true ∧ waits empty = 16
    ∧ (heap 0 0 0 (holding []) one).cue.pops = [] := by decide

/-- RESADD where the grid owns no heap, where the heap is closed, where the residual stays at TOL or above, where it falls below; and a
GROW. -/
theorem witness_residual :
    let w := 0x180903f2350
    let r (s : State) : Int := ((s.grid? 1).map fun g => g.tol.toInt).getD 0
    let closed := heap 2 0 0 (holding []) one
    let above := heap 0 0 0 (holding []) one
    let below := heap 0 0 1 (holding []) one
    (issueOf one w).clear one = true ∧ one.cue.owner = none
    ∧ (issueOf closed w).clear closed = true ∧ (issueOf above w).clear above = true ∧ (issueOf below w).clear below = true
    ∧ r above = 0 ∧ r below = 1 ∧ (issueOf below w).pair (issueOf below w).e.sa 0 true = 0
    ∧ (issueOf one 0x180903f2354).clear one = true ∧ (issueOf one 0x180903f2354).e.dst = .s 32
    ∧ (issueOf one 0x180903f2354).e.nw = false := by decide

/-- CueHeap: a write-out that is due, and one whose area faults. -/
theorem witness_writeOut :
    let s := heap 1 0 0 (holding [entryOf 0 1 5]) one
    let t := heap 1 (2 ^ 40) 0 (holding [entryOf 0 1 5]) one
    s.cue.owner = some 1 ∧ s.writeOutDue 1 = true ∧ (s.grid? 1).isSome = true ∧ (s.cueWriteOut 1).2 = true
    ∧ t.writeOutDue 1 = true ∧ (t.cueWriteOut 1).2 = false := by decide +kernel

/-- CueOrder: a strict pop and ones of a home shard whose top has half the greatest gain, or less; a die that holds an entry, and one that holds none. -/
theorem witness_cueOrder :
    let c := (heap 0 0 0 (holding [entryOf 0 1 5, entryOf 1 2 5, entryOf 2 3 9]) one).cue
    let d := { c with shards := List.replicate 8 { entries := [], gens := [] } ++ c.shards.take 24, dies := [0, 1] }
    let at1 (g : W32) : Cue := { c with shards := c.shards.set 1 { entries := [entryOf 0 4 g], gens := [] } }
    (c.select 0 0 true).map (fun x => x.2.2.gain) = some 9 ∧ (c.select 0 1 false).isSome = true
    ∧ (Cue.select (at1 5) 0 1 false).map (fun x => (x.1, x.2.1, x.2.2.gain)) = some (0, 1, 5)
    ∧ (Cue.select (at1 4) 0 1 false).map (fun x => (x.1, x.2.1, x.2.2.gain)) = some (0, 0, 9)
    ∧ (Cue.select (at1 5) 0 1 true).map (fun x => (x.1, x.2.1, x.2.2.gain)) = some (0, 0, 9)
    ∧ (Cue.select d 0 0 false).map (fun x => x.1) = some 1 := by decide

/-- StockForms: SKLOOK of registers, of a marked one, of a line in Stage; ROOTCAS of a name that is not live, of a cell that has
changed, of one that has not. -/
def emptyCell : State := withS (withS one 48 0) 49 0

theorem witness_stock :
    let w := 0x46008903f235a
    let v := 0x13000046118903f236e
    let k := withV one 8 cold
    let f (e : Enc) : Enc := { e with sa := .s 24, ext := .ctl (.v 0) (2 ^ 53) }
    let y (s : State) : Iss := issueOf s v
    (issueOf one w).clear one = true ∧ (issueOf one w).e.sa = .v 8 ∧ (issueOf k w).clear k = true ∧ (only k).marked 8 0 = true
    ∧ (issueBy one w f).clear one = true ∧ ((issueBy one w f).word (.s 24) (issueBy one w f).ul).toNat % 16 = 0
    ∧ readable (one.readRange 0 (only one) false .load .s 256 256) = true
    ∧ (y one).clear one = true ∧ (y one).e.dst = .s 32 ∧ (y one).e.nw = false ∧ (y one).pair (y one).e.sa 0 = 256
    ∧ placed (one.resolve 0 (only one) false .atomic .g 256 16) = true
    ∧ nameOrd (Claims.name (y one) (y one).e.sc) = 0 ∧ one.stockLine 0 (2 ^ 120) = none ∧ nameOrd (2 ^ 120 : BitVec 128) ≠ 0
    ∧ Claims.name (y one) (y one).e.sb = 0x00000000000001000000000000000100 := by decide

/-- A cell that holds the compared name. -/
theorem witness_sameName :
    let s := { one with mem := [(257, 1), (265, 1)] ++ tables }
    let y := issueOf s 0x13000046118903f236e
    y.clear s = true ∧ (BitVec.ofNat 128 (leNat (State.readAt s (.dev 256 none) 16)) : BitVec 128) = Claims.name y y.e.sb
    ∧ BitVec.ofNat 128 (leNat (one.readAt (.dev 256 none) 16)) ≠ Claims.name y y.e.sb := by decide

/-- SKLD to Stage and to registers. -/
theorem witness_skld :
    let w := 0x46000903f235e
    (issueOf one w).clear one = true ∧ (issueOf one w).e.ctlF 127 127 = 0 := by decide

/-- An operation of the group at hand, with a condition on state, group and operation. -/
def onOp (s : State) (o : Op) (p : State → Group → Op → Bool) : Bool :=
  let t := given (withOp s o) (.index2 0 o.id)
  (only t).live && decide ((only t).op? o.id = some o) && p t (only t) o

/-- The first operation of a group in a unit's queue. -/
def place (g : Nat) : Queued := { g := g, op := 0, at_ := 0, rank := 0 }

/-- OperationsEnd: an operation of each kind whose event takes place. -/
theorem witness_landings :
    (onOp one (opOf 0 (some .ld) .plain) (fun s _ o => o.phase = .queued && s.unguarded 0 o.hold)
      && onOp one (opOf 0 (some .st) .plain) (fun _ _ o => o.phase = .queued)
      && onOp one (opOf 0 none .plain) (fun _ _ o => o.phase = .queued)
      && onOp one { opOf 0 (some .mx) (.mxz 0 false) with phase := .started } fun _ _ o => o.phase = .started) = true := by decide

theorem witness_copiesEnd :
    let p (s : State) (g : Group) (o : Op) : Bool := !s.copyWaits 0 g o && (copyRun none s 0 g o).isSome
    (onOp one (opOf 0 (some .xc) (.copy .s .g 256 256 64)) p && onOp one (opOf 0 (some .xc) (.regOut .s 256 [1])) p
      && onOp one (opOf 0 (some .xc) (.gather 256 false false false 0 1)) p && onOp one (opOf 0 (some .xc) (.walk 256 0)) p
      && onOp one (opOf 0 (some .xc) (.boomld 0 .g 256 64)) p
      && onOp one (opOf 0 (some .xc) (.regIn .g 256 0 8 1)) fun s g _ => !g.gone && readable (s.readRange 0 g true .engRead .g 256 64))
      = true := by decide

theorem witness_enginesEnd :
    let h := hdrOf []
    let unit (o : Op) : Bool :=
      onOp { one with cycle := 1, cores := one.cores.modify 0 fun c => { c with ntt := [place 0] } } o fun s g o =>
        (unitRun s 0 g o).isSome && decide (((s.cores[0]?).bind fun c => c.ntt.head?) = some (place 0)) && decide ((place 0).at_ < s.cycle)
    (onOp one (opOf 0 (some .mx) (.cres 256 .s 0 0 1)) (fun s g o => (cresRun s 0 g o).isSome && g.mxIdle 0)
      && onOp one { opOf 0 (some .nt) (.bmul 0 0 0 .s .s .s h h h 0 0 true) with phase := .started }
        (fun s g o => (bmulRun s 0 g o).isSome && o.isMx)
      && unit (opOf 0 (some .nt) (.ntt false 256 256 .s .s 1 0 0x17DB)) && unit (opOf 0 (some .nt) (.kswitch 256 256 [] []))
      && unit (opOf 0 (some .nt) (.xcrt 256)) && unit (opOf 0 (some .nt) (.bmul 0 0 0 .s .s .s h h h 0 0 false))
      && onOp one (opOf 0 (some .ln) (.nest (nest 4) 256 256 256 [] 0)) (fun s g o => (streamRun s 0 g o).isSome)
      && onOp one (opOf 0 (some .sk) (.skld 1 none 8)) (fun s g o => (stockRun s 0 g o).isSome && !s.stockWaits 0 g o)
      && onOp one (opOf 0 (some .sk) (.skref true 1)) (fun s g o => (stockRun s 0 g o).isSome && !s.stockWaits 0 g o)
      && onOp one (opOf 0 (some .sk) (.skcopy 256 .g 1 1 0)) (fun s g o => (stockRun s 0 g o).isSome && !s.stockWaits 0 g o)
      && onOp one (opOf 0 (some .hp) (.halloc 64 none 0)) (fun _ _ o => o.phase = .queued)
      && onOp one (opOf 0 (some .hp) (.hfree 0)) fun _ _ o => o.phase = .queued) = true := by decide

/-- CountersFallInOrder: a sleeping group of which an operation of a class leaves, and one of which none does. -/
theorem witness_awake :
    let done : Op := { opOf 1 (some .ld) .plain with phase := .done }
    let leaves (g : Group) (n : Nat) : Bool := (g.ops[n]?).any fun o => decide (o.phase = .done) && (o.cls.isNone ||
      (g.ops.take n).all fun p => decide (p.cls = o.cls → p.phase = .done))
    let asleep (l : List Op) : Group := { only one with wait := .sleep 9, ops := l }
    leaves (asleep [opOf 0 (some .st) .plain, done]) 1 = true ∧ leaves (asleep [opOf 0 (some .ld) .plain, done]) 1 = false
    ∧ done.cls.isSome = true ∧ (only one).wait = .ready := by decide

/-- Operands of a matrix operation: A in registers, B at the start of Boom. -/
def operands : MxArgs := { ctl := 0x00000800000000, rows := 0, aRegs := [], aAddr := 0, bAddr := 0, scAddr := 0 }

/-- The group of core 0 with an operation at the head of its engine's queue. -/
def headOf (o : Op) : State :=
  let s := withOp one o
  given { s with cycle := 1, cores := s.cores.modify 0 fun c => { c with mxq := [place 0] } } (.index 0)

/-- MatrixEngine: an operation that starts, one that faults, and a schoolbook product. -/
theorem witness_matrixStarts :
    let h := hdrOf []
    let s := headOf (opOf 0 (some .mx) (.mxz 0 false))
    let f := headOf (opOf 0 (some .mx) (.mxrd [(0, 0x90000)] false 8))
    let b := headOf (opOf 0 (some .nt) (.bmul 0 0 0 .s .s .s h h h 0 0 true))
    let runs (s : State) : Nat := match s.mxHead 0 with
      | some (gi, id, g, o) => if s.mxServes 0 && o.phase = .queued && g.mxTurn id then (match s.mxRun gi g o with
          | .ok _ => 1
          | .error _ => 2) else 0
      | none => 0
    runs s = 1 ∧ runs f = 2 ∧ b.mxServes 0 = true ∧ State.mxServes { s with cycle := 0 } 0 = false ∧ b.hasToken 0 = true ∧ (b.mxHead 0).isSome = true ∧ (only b).mxIdle 0 = true := by decide

/-- Two halves of a pair, whose MXPAIRs are at the heads of their queues. -/
def twoHalves : State :=
  let o (h : Bool) : Op := opOf 0 (some .mx) (.mxpair operands h)
  let g := { only one with ops := [o false] }
  given { one with
    cycle := 1
    groups := [g, { g with core := 1, half := true, ops := [o true] }]
    teams := one.teams.map fun t =>
      { t with pair := true, even := { t.even with boom := 65536 }, odd := { t.even with boom := 65536, cells := [] },
               pairEven := [{ g := 0, op := 0, at_ := 0, paired := false }], pairOdd := [{ g := 1, op := 0, at_ := 0, paired := false }] }
    cores := (one.cores.modify 0 fun c => { c with mxq := [place 0] }).modify 1 fun c => { c with mxq := [place 1] } } (.index 0)

theorem witness_pairStarts :
    let s := twoHalves
    let is (o : Op) : Bool := o.isPair
    (match s.mxHead 0, s.mxHead 1 with
    | some (0, 0, eg, eo), some (1, 0, og, oo) =>
      is eo && is oo && s.mxServes 0 && s.mxServes 1 && s.hasToken 0 && eg.mxTurn 0 && og.mxTurn 0 && eg.grid = og.grid && eg.team = og.team
        && (match s.mxHalf 0 eg operands 0 eg operands, s.mxHalf 0 eg operands 1 og operands with
          | .ok _, .ok _ => true
          | _, _ => false)
    | _, _ => false) = true := by decide

/-- WaitsEnd: pairs that match and find room, that match and do not, that do not match; a pair that has waited too long. -/
theorem witness_pairs :
    let s := twoHalves
    let w (k : Nat) : PairWait := { g := k, op := 0, at_ := 0, paired := false }
    let crowded := { s with cores := s.cores.modify 1 fun c => { c with mxq := List.replicate 8 (place 1) } }
    let other := { s with groups := s.groups.modify 1 fun g => { g with ops := [opOf 0 (some .mx) (.mxpair { operands with ctl := 0 } true)] } }
    let m (s : State) : BitVec 54 := (s.pairCtl (w 0) ^^^ s.pairCtl (w 1)) &&& BitVec.ofNat 54 (2 ^ 54 - 1 - 7 * 2 ^ 22 - 2 ^ 20)
    (s.teams.map fun t => (t.pairEven, t.pairOdd, t.core)) = [([w 0], [w 1], 0)]
    ∧ (w 0).paired = false ∧ s.cycle < (w 0).at_ + 512 ∧ ¬ 512 < (w 0).at_ + 512 ∧ m s = 0 ∧ s.mxRoom 0 = true ∧ s.mxRoom 1 = true ∧ State.mxRoom crowded 1 = false ∧ m crowded = 0 ∧ m other ≠ 0 := by decide

theorem witness_pairTimesOut :
    let s := given { twoHalves with cycle := 512 } (.index 1)
    (match s.groups[1]? with
      | some g => (match s.teamOf g with
        | some t => ((if g.half then t.pairOdd else t.pairEven).find?
            (fun w => w.g = 1 && !w.paired && decide (w.at_ + 512 ≤ s.cycle))).isSome
        | none => false)
      | none => false) = true := by decide

/-- A sleeper whose interval has ended, and a sender and a receiver. -/
theorem witness_waits :
    let s := given (one.modGroup 0 fun g => { g with wait := .sleep 0 }) (.index 0)
    let a : RvWait := { g := 0, slot := 3, kind := .send 8 }
    let b : RvWait := { g := 0, slot := 3, kind := .recv 1 (.v 8) false }
    (only s).wait = .sleep 0 ∧ (only s).live = true ∧ 0 ≤ s.cycle
    ∧ [b, a].find? (fun w => w.slot = 3 && w.sends) = some a ∧ [b, a].find? (fun w => w.slot = 3 && !w.sends) = some b
    ∧ s.unguarded 0 a.register = true ∧ s.unguarded 0 b.register = true
    ∧ State.unguarded (withOp one (opOf 0 (some .xc) (.regIn .g 256 0 8 1))) 0 a.register = false := by decide

/-- A Stock whose lines have one digest and the ordinals from 1 on, and lie at one address. -/
def stocked (d : BitVec 120) (n pa : Nat) : State :=
  { one with ctxs := [{ id := 0, blocks := [], halloced := [], arena := 0, arenaLen := 0, fatal := false,
                        stock := (List.range n).map fun k =>
                          { pa := pa, key := none, ord := BitVec.ofNat 8 (k + 1), digest := d, count := 1 } }] }

/-- The line looked up. -/
def line1 : List Byte := List.replicate 256 9

/-- A lookup that finds no room. -/
theorem witness_lookupFull : (match one.lookup 0 line1 with
    | .ok (_, some n) => decide (n = 0)
    | _ => false) = true := by decide +kernel

theorem filterM_none {α ε : Type} (p : α → Except ε Bool) (l : List α) (h : ∀ x ∈ l, p x = .ok false) :
    l.filterM p = .ok [] := by
  have aux : ∀ (l acc : List α), (∀ x ∈ l, p x = .ok false) → l.filterAuxM p acc = .ok acc := by
    intro l
    induction l with
    | nil => intro acc _; rfl
    | cons a l ih =>
      intro acc h
      rw [List.filterAuxM, h a (by simp)]
      exact ih acc fun x hx => h x (by simp [hx])
  rw [List.filterM, aux l [] h]
  rfl

theorem filterM_error {α ε : Type} (p : α → Except ε Bool) (a : α) (l : List α) (e : ε) (h : p a = .error e) :
    (a :: l).filterM p = .error e := by
  rw [List.filterM, List.filterAuxM, h]
  rfl

theorem stocked_phys (d : BitVec 120) (n pa a : Nat) (r : Bool) : (stocked d n pa).physWhy a r = one.physWhy a r := rfl
theorem stocked_read (d : BitVec 120) (n pa a k : Nat) (q : Option (Fin 64)) :
    (stocked d n pa).readDev a k q = one.readDev a k q := rfl
theorem stocked_stock (d : BitVec 120) (n pa : Nat) : ((stocked d n pa).ctx 0).stock = (List.range n).map fun k =>
    ({ pa := pa, key := none, ord := BitVec.ofNat 8 (k + 1), digest := d, count := 1 } : StockLine) := rfl

/-- A line of zeros at an address whose 256 bytes are in memory. -/
theorem lineBytes_stocked (d : BitVec 120) (n : Nat) (l : StockLine) (hp : l.pa = 0x40000) (hk : l.key = none) :
    (stocked d n 0x40000).lineBytes l = .ok (one.readDev 0x40000 128 none ++ one.readDev 0x40080 128 none) := by
  have h1 : one.physWhy 0x40000 true = none := by decide
  have h2 : one.physWhy 0x40080 true = none := by decide
  simp only [State.lineBytes, hp, hk, stocked_phys, stocked_read, h1, h2, Bool.false_eq_true, if_false, Nat.reduceAdd]

theorem stocked_same (d : BitVec 120) (n pa : Nat) :
    ((stocked d n pa).ctx 0).stock.filter (fun l => l.digest = d) = ((stocked d n pa).ctx 0).stock := by
  rw [List.filter_eq_self, stocked_stock]
  intro l hl
  obtain ⟨k, -, rfl⟩ := List.mem_map.1 hl
  simp

/-- A lookup whose digest has every ordinal. -/
theorem lookup_taken (d : BitVec 120) (hd : stockDigest 0 line1 = d) :
    (stocked d 255 0x40000).lookup 0 line1 = .ok (stocked d 255 0x40000, none) := by
  have hm : ((stocked d 255 0x40000).ctx 0).stock.filterM
      (fun l => ((stocked d 255 0x40000).lineBytes l).map fun bs => bs == line1) = .ok [] := by
    refine filterM_none _ _ fun l hl => ?_
    rw [stocked_stock] at hl
    obtain ⟨k, -, rfl⟩ := List.mem_map.1 hl
    have hn : (one.readDev 0x40000 128 none ++ one.readDev 0x40080 128 none == line1) = false := by decide
    rw [lineBytes_stocked _ _ _ rfl rfl, Except.map, hn]
  have ho : ((List.range 255).find? fun k => !((stocked d 255 0x40000).ctx 0).stock.any fun l => l.ord.toNat = k + 1) = none := by
    rw [List.find?_eq_none, stocked_stock]
    intro k hk
    have := List.mem_range.1 hk
    simp only [Bool.not_eq_true', Bool.not_eq_false]
    refine List.any_eq_true.2 ⟨_, List.mem_map.2 ⟨k, hk, rfl⟩, ?_⟩
    simp only [BitVec.toNat_ofNat, decide_eq_true_eq]
    omega
  unfold State.lookup
  simp only [hd, stocked_same, hm, ho, bind, Except.bind]

theorem witness_lookupTaken : ∃ s : State, s.lookup 0 line1 = .ok (s, none) := ⟨_, lookup_taken _ rfl⟩

/-- A lookup that reads a line that no memory answers for. -/
theorem lookup_faults (d : BitVec 120) (hd : stockDigest 0 line1 = d) :
    (stocked d 1 (2 ^ 50)).lookup 0 line1 = .error (.mem 0x01 (digestLow d)) := by
  have h1 : one.physWhy (2 ^ 50) true = some 0x01 := by decide
  have hm : ((stocked d 1 (2 ^ 50)).ctx 0).stock.filterM
      (fun l => ((stocked d 1 (2 ^ 50)).lineBytes l).map fun bs => bs == line1) = .error (.mem 0x01 (digestLow d)) := by
    rw [stocked_stock]
    refine filterM_error _ _ _ _ ?_
    simp only [State.lineBytes, stocked_phys, h1, Except.map]
  unfold State.lookup
  simp only [hd, stocked_same, hm, bind, Except.bind]

theorem witness_lookupFaults : ∃ (s : State) (k : Nat) (a : W64), s.lookup 0 line1 = .error (.mem k a) :=
  ⟨_, _, _, lookup_faults _ rfl⟩

/-- An SKLOOK that waits. -/
theorem witness_looks :
    let o := opOf 0 (some .sk) (.sklook line1)
    let s := given (one.modGroup 0 fun g => { g with wait := .stock, ops := [opOf 1 (some .ld) .plain, o] }) (.index 0)
    (only s).live = true ∧ (only s).wait = .stock ∧ (only s).ops = [opOf 1 (some .ld) .plain] ++ o :: [] := by decide

/-- PowerTokens: a die with nine clusters; bursts at their limits, and one short of them. -/
theorem witness_tokens :
    let at_ (n : Nat) : State := given { one with cycle := n } (.index2 0 0)
    let c : Cluster := { token := true, taken := 0, lastMx := 0 }
    ((one.dies[0]?).map fun d => d.clusters.length) = some 9 ∧ ((one.dies[0]?).bind fun d => d.clusters[0]?) = some c
    ∧ c.taken + 8192 ≤ (at_ 8192).cycle ∧ (at_ 8191).cycle < c.taken + 8192
    ∧ c.lastMx + 64 ≤ (at_ 64).cycle ∧ (at_ 63).cycle < c.lastMx + 64
    ∧ ((one.dies[0]?).bind fun d => d.clusters[1]?) = some { c with token := false } := by decide

/-- Translation: a walk for a live group; a fetch that is answered, one that faults, one that waits for a translation; one without its key, one that
finds no walker. -/
def fetches (s : State) : Nat :=
  let g := only s
  if g.live && !g.gone && !g.stopped && decide (g.wait = .ready) && !g.hasBlock then
    match (s.resolve 0 g false .fetch .g (BitVec.ofNat 64 (32 * (g.pc.toNat / 32))) 32).2 with
    | .ok _ => 1
    | .error (.mem _ _) => 2
    | .error (.absent _ _) => 3
    | .error (.noKey _) => 4
    | .error (.wait _ _) => 5
  else 0

theorem witness_fetches : fetches one = 1 ∧ fetches noAccess = 2 ∧ fetches noPage = 3 ∧ fetches noKey = 4 ∧ fetches busy = 5 ∧ (only one).live = true
    ∧ (0x10040 : W64).toNat < 2 ^ 57 := by decide +kernel

/-- A fault record that waits, and one that is written. -/
def faultRec (seq : Option W32) (op : Option Nat) (kind : Nat) : FaultRec :=
  { seq := seq, g := 0, op := op, kind := kind, va := 64, level := 2, ctx := 0, ch := false }

/-- A fault ring that is out of use, one with room, one that is full. -/
theorem witness_faultRecord :
    let s := { one with frRecs := [faultRec (some 1) none 0, faultRec none none 0] }
    let inUse : State := { s with frbase := 0x30010 }
    (s.frRecs.find? fun q => q.seq.isNone) = some (faultRec none none 0) ∧ (s.groups[0]?).isSome = true
    ∧ s.frbase.getLsbD 4 = false ∧ inUse.frbase.getLsbD 4 = true ∧ (inUse.frtail - inUse.frhead).toNat ≠ 2 ^ 7
    ∧ (({ inUse with frtail := 128 } : State).frtail - inUse.frhead).toNat = 2 ^ 7 := by decide

/-- Answers: to an engine's fault, a group's, a chain's, an SVC's. -/
theorem witness_answers :
    let s := given { one with frRecs := [faultRec (some 1) (some 3) 4, faultRec (some 2) none 0, faultRec (some 3) none 6] } (.seq 2)
    let find (n : W32) : Option FaultRec := s.frRecs.find? fun q => q.seq = some n
    (find 1).bind FaultRec.op = some 3 ∧ (find 2).bind FaultRec.op = none ∧ (find 2).map FaultRec.kind = some 0
    ∧ (find 3).map FaultRec.kind = some 6 ∧ (only s).chain = none
    ∧ (only s).gone = false ∧ ({ only s with live := false } : Group).live = false ∧ ({ only s with gone := true } : Group).gone = true
    ∧ ({ only s with chain := some { pos := 1, first := 65600, hist := [], reads := [] } } : Group).chain.isSome = true := by decide

/-- A load of four bytes at address 256 that its operation has still to perform. -/
def loading (id : Nat) : Op :=
  let t : Access := { lane := 0, place := .dev 256 none, n := 4, a := 0, b := 0 }
  opOf id (some .ld) (.mem { kind := .load, ety := 4, ord := 0, scope := 0, uni := none, todo := [t], got := [], wrote := [] })

/-- An invalidation that runs, and none; the TLBs hold a translation of its pages. -/
theorem witness_tlb :
    one.tlbDone = true ∧ ({ one with tlbDone := false, tlbPages := 1 } : State).tlbDone = false
    ∧ ((one.cores[0]?).map fun c => c.tlb2.length) = some 2 ∧ one.accessing 0 = false
    ∧ (withOp one (loading 0)).accessing 0 = true := by decide

/-- DriverRegisters: a key slot that is loaded, one that is empty, a command under way, dies that are left and the last one. -/
theorem witness_keys :
    let s := { one with keys := one.keys.set 5 (some 7) }
    let d := given { s with keyOp := 2, keySlot := 5, keyDies := [1, 2], cache := [{ line := 96, dirty := true, slot := some 5 }] } (.index 1)
    s.keyOp = 0 ∧ s.keys[5]? = some (some 7) ∧ s.keys[6]? = some none ∧ d.keyOp = 2 ∧ 1 ∈ d.keyDies ∧ (∃ q ∈ d.keyDies, q ≠ 1)
    ∧ (∀ q ∈ ({ d with keyDies := [1] } : State).keyDies, q = 1) ∧ 128 * 96 / 4096 % 12 / 3 = 1 := by decide

theorem witness_mapsOut :
    let s := { one with mapPend := true, mapRegion := 2, mapWait := [4] }
    one.mapPend = false ∧ s.mapPend = true ∧ s.mapWait = 4 :: [] ∧ one.mapWait = [] := by decide

/-- A bank in which a team has an allocation, and one without; a sampler that is off, and one that is on. -/
theorem witness_banks :
    0 ∈ one.usedBanks 0 ∧ 31 ∉ one.usedBanks 0 ∧ (one.cores[143]?).isSome = true ∧ (one.cores[144]?).isSome = false
    ∧ ((one.cores[0]?).map fun c => c.smp.en) = some false ∧ (0xC0000000 : W64).getLsbD 31 = true ∧ one.cores.length = 144 := by decide

/-- Launching: launch queue 5 with one packet in its ring at 0x40000, in a device that is up. The packet's dependence word is at
0x50000. -/
def launch (waitaddr waitval seq : Nat) (word : List Byte) : State :=
  { one with
    bringState := 1, lqbase := 0x30000
    mem := array ++ tables ++ bytesAt 0x30140 (leBytes 8 0x40000 ++ leBytes 4 4 ++ leBytes 4 0 ++ leBytes 4 1 ++ leBytes 4 0 ++ [0x83])
      ++ bytesAt 0x40000 (List.replicate 24 0 ++ leBytes 8 waitaddr ++ leBytes 8 waitval ++ List.replicate 48 0 ++ leBytes 8 seq)
      ++ bytesAt 0x50000 word }

/-- What the head packet of queue 5 waits for. -/
def depends (s : State) : Nat :=
  if s.queueFull 5 && !s.queueBusy 5 then
    match s.headPacket 5 with
    | none => 0
    | some bs =>
      let p := packetOf bs
      if p.waitaddr = 0 then 1 else if p.seq.toNat ≠ s.lqRead 5 12 4 then 2
      else match s.readD (s.queueCtx 5) p.waitaddr.toNat 8 with
        | none => 3
        | some w => if leNat w < p.waitval.toNat then 4 else 5
  else 0

theorem witness_depends :
    depends (launch 0 0 0 []) = 1 ∧ depends (launch 0x50000 3 7 []) = 2 ∧ depends (launch (2 ^ 40) 3 0 []) = 3
    ∧ depends (launch 0x50000 3 0 [2]) = 4 ∧ depends (launch 0x50000 3 0 [3]) = 5 := by decide +kernel

/-- A queue that is ready, of priority 3, whose level's pointer stands at 255; and no queue in use. -/
theorem witness_turns :
    let s := launch 0 0 0 []
    s.queueFull 5 = true ∧ s.queueReady 5 = true ∧ s.lqRead 5 24 1 % 8 = 3 ∧ s.lqPtr[3]? = some 255
    ∧ (∀ q < 8, s.queueFull q = true → q = 5) ∧ one.queueFull 5 = false := by decide +kernel

/-- A grid with an index to dispatch, a persistent one, one with none left, one before which a grid of higher priority goes; teams that wait; a grid that is complete. -/
theorem witness_grids :
    let r (s : State) : List Grid := s.grids
    let more := given { one with grids := (r one).map fun g => { g with next := 0 } } (.grid 1)
    let held := { more with grids := (r more).map fun g => { g with kobj := { g.kobj with flags := 4 } } }
    let over1 := { one with grids := (r one).map fun g => { g with exited := 1, running := 0 } }
    ((r one).all fun g => decide (g.gcnt.toNat ≤ g.next.toNat)) = true
    ∧ ((r more).all fun g => decide (g.next.toNat < g.gcnt.toNat) && !g.kobj.persistent) = true
    ∧ ((r held).all fun g => decide (g.next.toNat < g.gcnt.toNat) && g.kobj.persistent) = true
    ∧ ((r over1).all fun g => decide (g.next = g.gcnt) && decide (g.exited = g.gcnt.toNat) && decide (g.running = 0)
        && decide (g.pre = [])) = true
    ∧ (r more).all (fun g => decide (g ∈ more.toDispatch)) = true
    ∧ (State.toDispatch { more with grids := r more ++ (r more).map fun g => { g with id := 2, pri := 5 } }).map Grid.id = [2]
    ∧ over1.waiting = [] ∧ (r one).all (fun g => decide (g.exited = g.gcnt.toNat)) = false := by decide

/-- Teams that wait: one that fits, one that does not. -/
theorem witness_admission :
    let s : State := { one with waiting := [(1, 1)] }
    let free : State := { s with groups := [], teams := [] }
    s.frontier = [(1, 1)] ∧ free.frontier = [] ++ (1, 1) :: [] ∧ (s.tryAdmit 1 1).isSome = false ∧ (free.tryAdmit 1 1).isSome = true := by
  decide +kernel

/-- PreemptionAndRestore: a command under way; a grid that is not there; a team that is not there; one that is; every team, named by an
array whose addresses are aligned, or not, or that cannot be read. -/
theorem witness_preempt :
    let s := given { one with mem := one.mem ++ [(0x30001, 0x50), (0x32000, 1)] } (.team 0x30000 1 0xFFFFFFFF 0)
    let array (a : Nat) : Option W64 := (s.readD 0 a 8).map fun bs => imageAddr bs 0
    s.pecmd.op = 0 ∧ (s.grid? 2).isNone = true ∧ (s.grid? 1).isSome = true ∧ (s.teams.filter fun t => t.grid = 1 && t.id = 7) = []
    ∧ (s.teams.filter fun t => t.grid = 1 && t.id = 0).length = 1 ∧ (∀ r ∈ s.grids, r.kobj.persistent = false ∧ r.fatal = false)
    ∧ (0x30000 : W64).toNat % 4096 = 0 ∧ (0x30008 : W64).toNat % 4096 ≠ 0 ∧ (∀ r ∈ s.grids, r.gcnt = 1)
    ∧ array 0x30000 = some 0x5000 ∧ array 0x32000 = some 1 ∧ array (2 ^ 40) = none := by
  decide +kernel

/-- Images that are written, that fault; operations that are outstanding. -/
def stopped (a : W64) : State :=
  { one with pecmd := { one.pecmd with op := 1 }, teams := one.teams.map fun t => { t with stop := some a, nGroups := 0, even := Half.none } }

/-- The same where the page of the image lies in host memory. -/
def inHost : State := { stopped 0x30000 with mem := array ++ tables ++ [(0x23007, 1)] }

theorem witness_images :
    let busy := withOp (stopped 0x30000) (opOf 0 (some .ld) .plain)
    let ts (s : State) : List Team := s.teams.filter fun t => t.stop.isSome
    (stopped 0x30000).pecmd.op = 1 ∧ busy.drained = false ∧ (stopped 0x30000).drained = true ∧ ts (stopped 0x30000) ≠ []
    ∧ (((ts inHost).foldl State.commitTeam inHost).writeImages (ts inHost)).isSome = true ∧ inHost.drained = true ∧ inHost.pecmd.op = 1 ∧ ts inHost ≠ []
    ∧ (((ts (stopped (2 ^ 40))).foldl State.commitTeam (stopped (2 ^ 40))).writeImages (ts (stopped (2 ^ 40)))).isSome = false := by decide +kernel

/-- A team that has left its core, and its image at 0x30000: header, one group, Stage, pools. -/
def left1 (grid : Nat) : State :=
  let p : PreTeam := { team := 0, image := 0x30000, core := 0, waits := [none], tasks := [false], replays := [false], firsts := [0], kept := true,
                       boomEven := [], boomOdd := [], stackBlocks := [] }
  given { one with
    groups := [], teams := [], grids := one.grids.map fun r => { r with pre := [p], running := 0 }
    mem := array ++ tables ++ bytesAt 0x30000 (leBytes 4 0x4B494D47 ++ leBytes 4 1 ++ leBytes 4 grid) } (.team 0x30000 1 0 0)

theorem witness_restore :
    let s := left1 1
    let hd (s : State) : Option ImageHead := (s.readD 0 0x30000 256).map imageHead
    let mine (s : State) : List PreTeam := s.grids.flatMap fun r => r.pre.filter fun p => p.team = 0
    s.pecmd.op = 0 ∧ (mine s).length = 1 ∧ mine one = []
    ∧ ((s.grids.head?).bind fun r => s.readHeads r [(0, 0x30000)]).isSome = true
    ∧ (((left1 9).grids.head?).bind fun r => (left1 9).readHeads r [(0, 0x30000)]).isSome = false
    ∧ (hd s).map (fun h => (h.ok, h.grid, h.team)) = some (true, 1, 0) ∧ (hd (left1 9)).map ImageHead.grid = some 9 := by decide +kernel
/-- A team of group contents that lies at `a`, taken out of its grid for a restore. -/
def savedAt (a : W64) : Saved :=
  ({ team := 0, image := a, core := 0, waits := [none], tasks := [false], replays := [false], firsts := [0], kept := true,
     boomEven := [], boomOdd := [], stackBlocks := [] }, imageHead (leBytes 4 0x4B494D47 ++ leBytes 4 1 ++ leBytes 4 1))
def taken : State :=
  State.modGrid { left1 1 with pecmd := { (left1 1).pecmd with op := 2 } } 1 fun g => { g with pre := [] }

/-- Whether it is placed (1) and its image can be read (2). -/
def restores (s : State) (x : Saved) : Nat :=
  match s.placeSaved loadedGrid 0 x with
  | none => 0
  | some t => if (t.fillTeam loadedGrid x).isSome then 2 else 1

theorem witness_placed :
    restores taken (savedAt 0x30000) = 2 ∧ restores taken (savedAt 0x3FFFF000) = 1
    ∧ restores { taken with cores := taken.cores.map fun c => { c with fenced := true } } (savedAt 0x30000) = 0 := by decide +kernel

/-- ErrorsAndHeat: a region that is present, and one that is not; more errors than the threshold, and not. -/
theorem witness_errors :
    let times (s : State) (pa : Nat) := (s.ceTimes.filter fun t => s.nstime.toNat < t.2.2 + 86400000000000) ++ [(pa / 4096 % 12, pa / (48 * 2 ^ 30), s.nstime.toNat)]
    let n (s : State) (pa : Nat) : Nat := ((times s pa).filter fun t => t.1 = pa / 4096 % 12 && t.2.1 = pa / (48 * 2 ^ 30)).length
    let two : State := { one with mapthr := 1, ceTimes := [(1, 0, 5)] }
    one.regions.getLsbD 0 = true ∧ one.regions.getLsbD 1 = false ∧ one.mapthr ≠ 0 ∧ ({ one with mapthr := 0 } : State).mapthr = 0 ∧ n two 4096 = 2 ∧ two.mapthr.toNat = 1
    ∧ n two 0 = 1 ∧ two.mapPend = false := by decide

/-- A core and a die in service, and out of it; a ring that records; an assembly, and none. -/
theorem witness_fatal :
    let off : State := { one with cores := one.cores.map fun c => { c with fenced := true }, dies := one.dies.map fun d => { d with down := true },
                                  assembling := true }
    ((one.cores[143]?).map Core.fenced, (off.cores[143]?).map Core.fenced) = (some false, some true)
    ∧ ((one.dies[3]?).map Die.down, (off.dies[3]?).map Die.down) = (some false, some true)
    ∧ ((one.rings[147]?).map Ring.frozen, (off.rings[0]?).map Ring.frozen) = (some false, some false)
    ∧ one.assembling = false ∧ off.assembling = true ∧ one.rings.length = 148 := by decide

/-- Cores: at 95 °C, at four droop events, at 94 °C; hot, and cool for 200 µs, or less. -/
theorem witness_heat :
    let s := { one with nstime := 1000000 }
    let core (temp : Byte) (droops : List Nat) (hot : Bool) (since : Option Nat) : Option Core :=
      (s.cores[0]?).map fun c => { c with temp := temp, droops := droops, hot := hot, coolSince := since }
    let recent (c : Core) : Nat := (c.droops.filter fun t => s.nstime.toNat < t + 10000).length
    let warm (c : Core) : Bool := !c.hot && (95 ≤ c.temp.toNat || 4 ≤ recent c)
    let cool (c : Core) : Bool := c.hot && c.coolSince.any fun t => t + 200000 ≤ s.nstime.toNat
    (core 95 [] false none).map warm = some true ∧ (core 94 [] false none).map warm = some false
    ∧ (core 40 [990001, 990002, 999999, 1000000] false none).map warm = some true
    ∧ (core 40 [990000, 990002, 999999, 1000000] false none).map warm = some false
    ∧ (core 95 [] true none).map warm = some false
    ∧ (core 88 [] true (some 800000)).map cool = some true ∧ (core 88 [] true (some 800001)).map cool = some false
    ∧ (core 88 [] true none).map cool = some false ∧ s.dies.length = 4 := by decide

/-- Resets: what training finds where a die cannot be reached, where all can; the ends of bring-up. -/
def found (lane : Nat) (regions : BitVec 12) (cxl : BitVec 2) (sig : List Byte := []) : BringupFound :=
  { firmware := [0x01], firmwareSig := sig, regions := regions, cxl := cxl, lanes := List.replicate 18 lane, temps := List.replicate 144 40 }

/-- An image of no records. -/
def noRecords : List Byte := leBytes 4 0x47494643 ++ leBytes 4 1 ++ leBytes 8 7 ++ List.replicate 48 0 ++ List.replicate 384 1

theorem witness_resets :
    Claims.reached (found 8 1 1) = true ∧ Claims.reached (found 4 1 1) = true ∧ Claims.reached (found 0 1 1) = false
    ∧ (found 8 1 1).genuine = false ∧ (found 8 0 1).regions = 0 ∧ (found 8 1 0).cxl = 0 ∧ one.bestCopy = none ∧ one.assembling = false
    ∧ ({ one with assembling := true } : State).assembling = true ∧ (∀ r ∈ one.image, imageAllows r.1 r.2 = true)
    ∧ imageAllows 0x40018 576 = true ∧ imageAllows 0x40018 577 = false := by decide

/-- Firmware is genuine wherever the root key verifies its signature, which has 384 bytes; for some key one does. -/
theorem found_genuine (lane : Nat) (regions : BitVec 12) (cxl : BitVec 2) (sig : List Byte)
    (hv : rsaVerify (sha256 [0x01]) sig = true) : (found lane regions cxl sig).genuine = true := hv

/-- With exponent 1 the encoded digest is its own signature; a digest of other bytes has another. -/
theorem some_key_verifies : rsaVerifyBy (2 ^ 3071) 1 (List.replicate 32 7) (rsaEncoded (List.replicate 32 7)) = true
    ∧ rsaVerifyBy (2 ^ 3071) 1 (List.replicate 32 8) (rsaEncoded (List.replicate 32 7)) = false := by decide

/-- 7^13 modulo 11 * 13, and back by the exponent 37, for 13 * 37 = 481 = 1 + 4 * 120. -/
theorem test_powMod : powMod 143 7 8 13 = 7 ^ 13 % 143 ∧ powMod 143 (powMod 143 7 8 13) 8 37 = 7 := by decide

/-- An image that is valid wherever the root key verifies its signature. -/
theorem noRecords_valid : imageValid noRecords = rsaVerify (sha256 (imageBody noRecords)) (noRecords.drop 64) := by
  have h : (noRecords.length = imageLen noRecords ∧ fieldAt noRecords 0 4 = 0x47494643 ∧ fieldAt noRecords 4 4 = 1
      ∧ zeroAt noRecords 20 44 = true ∧ 64 + 16 * imageCount noRecords = 64
      ∧ ((imageRecords noRecords).all fun r => imageAllows r.1 r.2) = true) := by decide
  obtain ⟨a, b, c, d, e, f⟩ := h
  simp only [imageValid, a, b, c, d, f, decide_true, Bool.true_and, Bool.and_true, e]

/-- So is the copy that a cold reset takes. -/
theorem bestCopy_noRecords (s : State) (h0 : s.flash0.bytes = noRecords) (h1 : s.flash1.bytes = [])
    (hv : rsaVerify (sha256 (imageBody noRecords)) (noRecords.drop 64) = true) : s.bestCopy = some (false, noRecords) := by
  have hn : imageValid [] = false := by
    have : ¬ (([] : List Byte).length = imageLen []) := by decide
    simp only [imageValid, this, decide_false, Bool.false_and]
  simp only [State.bestCopy, h0, h1, noRecords_valid, hv, hn, Bool.false_and, if_true, Bool.false_eq_true, if_false]

/-- HostSide: the window's two sides, messages' lengths, ports up and down, queues empty and not. -/
def windowed : State := { one with memwin := 1, links := one.links.set 3 { lanes := 8, state := 2 }, bringState := 1 }

theorem witness_hostSide :
    windowed.inWindow 96 32 = true ∧ windowed.inWindow (2 ^ 30 - 4) 4 = true ∧ windowed.inWindow (2 ^ 30 - 4) 5 = false
    ∧ Memory.wf windowed.hostMem = true ∧ windowed.linkUp 3 = true ∧ windowed.linkUp 2 = false
    ∧ (List.replicate 256 (1 : Byte)).length = 256 ∧ windowed.ports[11]? = some { out := [], inn := [] }
    ∧ (({ windowed with ports := windowed.ports.set 3 { out := [], inn := [[1]] } } : State).ports[3]?).map Port.inn = some [[1]]
    ∧ imageLen (noRecords.take 64) = 448 ∧ (noRecords.take 64).length = 64 ∧ noRecords.length = 448 ∧ imageLen noRecords ≤ noRecords.length
    ∧ imageValid (0 :: noRecords.drop 1) = false ∧ windowed.flashActive = false := by
  decide

/-- Slates: an empty slot and a stored one. -/
def slate1 : Slate := { acked := false, seq := 1, tf := 5, cause := 0x82, level := 1, origin := 3, causeCtx := 0, nfatal := 1, imgseq := 7, rings := [] }
theorem witness_slates :
    let s := { one with slates := one.slates.set 2 (some slate1), assembling := true, rings := one.rings.map fun (r : Ring) => { r with frozen := true } }
    s.slates[2]? = some (some slate1) ∧ s.slates[7]? = some none ∧ s.slates.length = 8 ∧ (0xFFFD : BitVec 16) ≠ 0xFFFE
    ∧ s.assembling = true ∧ (∀ r ∈ s.rings, r.frozen = true) ∧ (∃ r ∈ one.rings, r.frozen = false) ∧ s.coldPending = none
    ∧ (∃ i < 8, s.slates[i]? = some none)
    ∧ (∀ i < 8, ∃ x ∈ List.replicate 8 slate1, (List.replicate 8 (some slate1))[i]? = some (some x) ∧ x.acked = false) := by decide

/-- Memory copies: staged records with room in the memory ring, and without. -/
theorem witness_copiesOut :
    let r : Ring := { Ring.reset with mir := { Ring.reset.mir with staging := [1, 2], pa := 0x30000, en := true } }
    let full : Ring := { r with mir := { r.mir with tail := 256 } }
    let c : Option Core := (one.cores[0]?).map fun c => { c with smp := { c.smp with staging := [1], base := 0x30000, en := true } }
    r.mir.staging = 1 :: [2] ∧ (r.mir.tail - r.mir.head).toNat ≠ 2 ^ (r.mir.size.toNat + 8)
    ∧ (full.mir.tail - full.mir.head).toNat = 2 ^ (full.mir.size.toNat + 8)
    ∧ c.map (fun c => decide ((c.smp.tail - c.smp.head).toNat = 2 ^ (c.smp.base.toNat % 16 + 8))) = some false
    ∧ c.map (fun c => decide ((c.smp.tail + 256 - c.smp.head).toNat = 2 ^ (c.smp.base.toNat % 16 + 8))) = some true := by decide

/-- Samplers: off, on before the instant, on at it; with a group to sample, and none. -/
theorem witness_samples :
    let m : Option Sampler := (one.cores[0]?).map fun c => { c.smp with en := true, next := 5, allctx := true }
    ((one.cores[0]?).map fun c => c.smp.en) = some false
    ∧ m.map (fun m => (decide (m.next ≤ one.cycle), decide (m.next ≤ 5), (one.sampled 0 0 m).length, (one.sampled 5 0 m).length))
      = some (false, true, 1, 0) ∧ one.epochBit = one.nstime.getLsbD 39
    ∧ ({ one with nstime := 2 ^ 39 } : State).nstime.getLsbD 39 ≠ one.epochBit := by decide

/-- RecordsAndClock: a counter of cycles at its last value, of a group that waits, and after the event; and one that is not there. -/
theorem witness_counterOverflows :
    let s (n : BitVec 48) : State := one.modGroup 0 fun g => { g with pmctl := 1, pmc := g.pmc.set 0 n, pmsel := g.pmsel.set 0 1, wait := .queue }
    let at_ (n : BitVec 48) : State := given (s n) (.index2 0 0)
    let after : Option Group := match exec .cycleCountOverflow (at_ 0xFFFFFFFFFFFF) with
      | .next t => t.groups[0]?
      | _ => none
    (only (at_ 5)).live = true ∧ (only (at_ 5)).pmctl.getLsbD 0 = true ∧ (only (at_ 5)).pmc.length = 8 ∧ (only (at_ 5)).pending 0 = 0
    ∧ (only (at_ 5)).early = [] ∧ State.spends (at_ 5) 0 (only (at_ 5)) 1 = true ∧ (only (at_ 5)).pmc[0]? = some 5
    ∧ ((at_ 0xFFFFFFFFFFFF).pick 0 0).isNone = true ∧ (State.issueOf (at_ 5) 0 (only (at_ 5))).isNone = true
    ∧ after.map (fun g => (g.pmc[0]?, g.pmovf, g.early)) = some (some 0, 1, [0]) := by decide +kernel

/-- The exchange of the clock: within the step of 1 µs, beyond it, free running. -/
theorem witness_clock :
    let r (o : Int) (st : BitVec 2) : PtpResult := { offset := o, port := 3, state := st }
    (r 5 1).state ≠ 0 ∧ (r 5 1).state ≠ 3 ∧ -(r (-1000) 1).offset ≤ 1000 ∧ 1000 < -(r (-1001) 1).offset ∧ (r 0 3).state = 3 := by decide
/-- The least reason for which an encoding rule makes a word ILLEGAL once a field of it is changed (spec 06 R176), its code alone. -/
def refused (w : Nat) (f : Enc → Enc) : Option Nat := (firstWhy (encWhy (fields w).1 (fields w).2.1 (f (fields w).2.2))).map Prod.fst

/-- VADD v9, v9, v7. -/
def vadd9 : Enc := (fields 0x20001C0904BF0144).2.2

/-- Terms that no word stands for are not well formed: a code of a register as a reserved one, in each field; BLEN with the other
destination; WAITC with the other SC; a reserved OPC that is none. -/
theorem test_notCanonical :
    WellFormed (.vadd vadd9) = true
    ∧ WellFormed (.vadd { vadd9 with sa := .rsv 5 }) = false ∧ WellFormed (.vadd { vadd9 with sb := .rsv 300 }) = false
    ∧ WellFormed (.vadd { vadd9 with dst := .rsv 7 }) = false
    ∧ (Instr.vmadw { vadd9 with ext := .ctl (.rsv 9) 0 }).canonical = false
    ∧ (Instr.blenTag { vadd9 with dst := .v 3 }).canonical = false ∧ (Instr.blenResize { vadd9 with dst := .s 3 }).canonical = false
    ∧ (Instr.waitc { vadd9 with mod := 0x080 }).canonical = false ∧ (Instr.waitcScFence { vadd9 with mod := 0 }).canonical = false
    ∧ (Instr.reservedOpc 0x3F2004).canonical = false ∧ (Instr.reservedOpc 0xF0).canonical = true := by decide

/-- Words that an encoding rule refuses are not well formed: those of R176's reasons 0x04 to 0x0C. -/
theorem test_illegalFields :
    WellFormed (.reservedOpc 0xF0) = false
    ∧ refused 0x20001C0904BF0144 (fun e => { e with ext := .ctl (.v 0) 0 }) = some 0x06
    ∧ refused 0x20001C0904BF0144 (fun e => { e with ext := .lit 5 }) = some 0x06
    ∧ refused 0x3F2004 (fun e => { e with u := false }) = some 0x07
    ∧ refused 0x20001C0904BF0144 (fun e => { e with pg := 48 }) = some 0x08
    ∧ refused 0x20001C0904BF0144 (fun e => { e with pn := true }) = some 0x08
    ∧ refused 0x3F2004 (fun e => { e with pg := 3 }) = some 0x08
    ∧ refused 0x20001C0904BF0144 (fun e => { e with mod := 0x600 }) = some 0x09
    ∧ refused 0x20001C0904BF0144 (fun e => { e with mod := 0x210 }) = some 0x09
    ∧ refused 0x20001C0904BF0144 (fun e => { e with mod := 0x202 }) = some 0x09
    ∧ refused 0x20001C0904BF0144 (fun e => { e with mod := 0x201 }) = some 0x09
    ∧ refused 0x3F2004 (fun e => { e with sa := .v 1 }) = some 0x0A
    ∧ refused 0x3F2004 (fun e => { e with mod := 1 }) = some 0x0A
    ∧ refused 0x3F2004 (fun e => { e with dst := .v 1 }) = some 0x0A
    ∧ refused 0x20001C0904BF0144 (fun e => { e with sa := .rsv 500 }) = some 0x0B
    ∧ refused 0x20001C0904BF0144 (fun e => { e with sb := .lit }) = some 0x0C := by decide

/-- And those of its other reasons. -/
theorem test_illegalForms :
    refused 0x20001C0904BF0144 (fun e => { e with dst := .s 1 }) = some 0x0D
    ∧ refused 0x20001C0904BF0144 (fun e => { e with dst := .none }) = some 0x0D
    ∧ refused 0x3F2004 (fun e => { e with nw := true }) = some 0x0D
    ∧ refused 0x20001C0904BF0144 (fun e => { e with mod := 0x300 }) = some 0x0E
    ∧ refused 0x20001C0904BF0144 (fun e => { e with sb := .flt 2 }) = some 0x0B
    ∧ refused 0x20004000000000046118003f0302 (fun e => { e with ext := match e.ext with | .ctl sc c => .ctl sc (c ||| 0x2000000000000) | x => x }) = some 0x11
    ∧ refused 0x3F2008 (fun e => { e with ch := true }) = some 0x13
    ∧ (firstWhy (csrWhy 0x14 { vadd9 with ext := .lit 0xFFF })).map Prod.fst = some 0x15
    ∧ (firstWhy (csrWhy 0x15 { vadd9 with ext := .lit 0x1012 })).map Prod.fst = some 0x17
    ∧ refused 0xFFFFE9818B3F202C (fun e => e) = none
    ∧ WellFormed (.lnest (nestOf 0x4000000000001000000000000400000000000000C0C162842F2F)) = true
    ∧ WellFormed (.lnest { nestOf 0x4000000000001000000000000400000000000000C0C162842F2F with eop := 15 }) = false
    ∧ WellFormed (.lnest { nestOf 0x4000000000001000000000000400000000000000C0C162842F2F with etype := 31 }) = false
    ∧ WellFormed (.lnest { nestOf 0x4000000000001000000000000400000000000000C0C162842F2F with dbase := 1 }) = false
    ∧ WellFormed (.lnest { nestOf 0x4000000000001000000000000400000000000000C0C162842F2F with extent := 0x001000000000000 }) = false := by decide

/-! Results of one step, by hand from the rules of spec 03, 08, 09. An entry is a word; the values of v0, v2 and v4 in every lane, or of
s0, s2 and s4; and what lane 3 of v16, or s16, then holds. -/

/-- The state after an instruction. -/
def run (s : State) (w : Nat) : Option State :=
  match decode (BitVec.ofNat 256 w) with
  | .ok i => match exec i s with
    | .next t => some t
    | _ => none
  | .error _ => none

/-- What a lane of a vector register, or a scalar register, of the group holds. -/
def laneOf (t : Option State) (k l : Nat) : Option W32 := t.bind fun s => ((only s).vregs[k]?).bind fun r => r.val[l]?
def scalarOf (t : Option State) (k : Nat) : Option W32 := t.bind fun s => (only s).sregs[k]?

def onVectors (p : Nat × Nat × Nat × Nat × Nat) : Bool :=
  let v (n : Nat) : VReg := all (BitVec.ofNat 32 n)
  decide (laneOf (run (withV (withV (withV one 0 (v p.2.1)) 2 (v p.2.2.1)) 4 (v p.2.2.2.1)) p.1) 16 3
    = some (BitVec.ofNat 32 p.2.2.2.2))

def onScalars (p : Nat × Nat × Nat × Nat × Nat) : Bool :=
  let w (n : Nat) : W32 := BitVec.ofNat 32 n
  decide (scalarOf (run (withS (withS (withS one 0 (w p.2.1)) 2 (w p.2.2.1)) 4 (w p.2.2.2.1)) p.1) 16 = some (w p.2.2.2.2))

/-- VADD to VCVT: R203's and R214's results, counts modulo the width, R204's fields, R85's conversions. -/
theorem test_vectorInteger : List.all
  [(0x20000800083f0144, 0xffffffff, 2, 0, 1), (0x28800800083f0144, 0x7fffffff, 1, 0, 0x7fffffff),
   (0x20000800083f0148, 1, 2, 0, 0xffffffff), (0x20000800083f0154, 0x10001, 0x10001, 0, 0x20001),
   (0x20000800083f0158, 0xffffffff, 0xffffffff, 0, 0xfffffffe), (0x28000800083f0158, 0xffffffff, 0xffffffff, 0, 0),
   (0x420000800083f015e, 3, 5, 7, 0x16), (0x20000800083f0164, 3, 5, 0, 2), (0x28000800083f0164, 0xffffffff, 1, 0, 2),
   (0x20000800083f0168, 0xf0f0, 0xff00, 0, 0xf000), (0x20000800083f016c, 0xf0f0, 0xff00, 0, 0xfff0),
   (0x20000800083f0170, 0xf0f0, 0xff00, 0, 0xff0), (0x20000000083f0174, 0xf0f0, 0, 0, 0xffff0f0f),
   (0x20000800083f0178, 0x80000001, 0x21, 0, 2), (0x20000800083f017c, 0x80000000, 4, 0, 0x8000000),
   (0x28000800083f0180, 0x80000000, 4, 0, 0xf8000000), (0x20000800083f0184, 0x80000001, 4, 0, 0x18),
   (0x28000800083f0188, 0xffffffff, 1, 0, 0xffffffff), (0x20000800083f0188, 0xffffffff, 1, 0, 1),
   (0x28000800083f018c, 0xffffffff, 1, 0, 1), (0x20000000083f0190, 1, 0, 0, 0x1f), (0x20000000083f0190, 0, 0, 0, 0x20),
   (0x20000000083f0194, 0xf0, 0, 0, 4), (0x20000800083f0198, 0xabcd1234, 0x810, 0, 0xcd),
   (0x28000800083f0198, 0xabcd1234, 0x810, 0, 0xffffffcd), (0x420000800083f019e, 0xaaaaaaaa, 0xcd, 0x810, 0xaacdaaaa),
   (0x8001400083f01a8, 0x12c, 0, 0, 0x2c), (0x8801400083f01a8, 0x12c, 0, 0, 0x7f),
   (0x50001400083f01a8, 0xffffffff, 0, 0, 0xbf800000)]
  onVectors = true := by decide +kernel

/-- R75 to R77, R81 to R83, R219 to R222: rounding modes, signs of zero, NaNs, special values. -/
theorem test_float : List.all
  [(0x50000800083f01c0, 0x3f800000, 0x40000000, 0, 0x40400000), (0x50000800083f01c4, 0x3f800000, 0x3f800000, 0, 0),
   (0x50400800083f01c4, 0x3f800000, 0x3f800000, 0, 0x80000000), (0x50000800083f01c8, 0x40400000, 0xbf000000, 0, 0xbfc00000),
   (0x50000800083f01e0, 0x3f800000, 0x40400000, 0, 0x3eaaaaab), (0x50200800083f01e0, 0x3f800000, 0x40400000, 0, 0x3eaaaaaa),
   (0x50000800083f01e0, 0x3f800000, 0, 0, 0x7f800000), (0x50800800083f01e0, 0x3f800000, 0, 0, 0x7f7fffff),
   (0x50000000083f01e4, 0x40000000, 0, 0, 0x3fb504f3), (0x50000000083f01e4, 0xbf800000, 0, 0, 0x7fc00000),
   (0x50000000083f01e8, 0x40800000, 0, 0, 0x3e800000), (0x50000000083f01ec, 0x80000000, 0, 0, 0xff800000),
   (0x50000800083f01d0, 0, 0x80000000, 0, 0x80000000), (0x50000800083f01d4, 0x7fc00000, 0x40a00000, 0, 0x40a00000),
   (0x50000000083f01f0, 0xff800000, 0, 0, 0), (0x50000000083f01f0, 0x40400000, 0, 0, 0x41000000),
   (0x50000000083f01f4, 0x3f800000, 0, 0, 0), (0x50000000083f01f4, 0x80000000, 0, 0, 0xff800000),
   (0x50000000083f01f8, 0xc0400000, 0, 0, 0x80000000), (0x50000000083f01fc, 0x3f000000, 0, 0, 0),
   (0x50000000083f01fc, 0x7f800000, 0, 0, 0x7fc00000), (0x50000000083f0204, 0xbecccccd, 0, 0, 0x80000000),
   (0x50000800083f0208, 1, 0xffffffff, 0, 0), (0x50600800083f0208, 1, 0xffffffff, 0, 1),
   (0x50000000083f01dc, 0x7f800001, 0, 0, 0x100), (0x50000000083f01dc, 0x80000000, 0, 0, 8),
   (0x40000800083f01c0, 0x3c00, 0x4000, 0, 0x4200), (0x50000800083f01c0, 0x7f800001, 0x7fc00123, 0, 0x7fc00001)]
  onVectors = true := by decide +kernel

/-- The table of conversions of R83, and R84. -/
theorem test_conversions : List.all
  [(0x84002800083f0200, 0x3f080000, 0, 0, 0x39), (0x84802800083f0200, 0x3f080000, 0, 0, 0x39),
   (0x84002800083f0200, 0xbf080000, 0, 0, 0xb9), (0x84802800083f0200, 0xbf080000, 0, 0, 0xb9),
   (0x84002800083f0200, 0x43680000, 0, 0, 0x7f), (0x84802800083f0200, 0x43680000, 0, 0, 0x7e),
   (0x8c002800083f0200, 0x43680000, 0, 0, 0x7f), (0x8c802800083f0200, 0x43680000, 0, 0, 0x7f),
   (0x8c002800083f0200, 0x43780000, 0, 0, 0x80), (0x8c802800083f0200, 0x43780000, 0, 0, 0x7f),
   (0x94002800083f0200, 0xbe800000, 0, 0, 0xff), (0x94802800083f0200, 0xbe800000, 0, 0, 0),
   (0x83002800083f0200, 0x39800000, 0, 0, 0x10), (0x83802800083f0200, 0x39800000, 0, 0, 0x10),
   (0x83002800083f0200, 0x39900000, 0, 0, 0x11), (0x83802800083f0200, 0x39900000, 0, 0, 0x11),
   (0x20002800083f0200, 0xbf800000, 0, 0, 0), (0x28002800083f0200, 0x7f800000, 0, 0, 0x80000000),
   (0x28802800083f0200, 0x7f800000, 0, 0, 0x7fffffff), (0x28002800083f0200, 0x40200000, 0, 0, 2),
   (0x8002800083f0200, 0x40200000, 0, 0, 3)]
  onVectors = true := by decide +kernel

/-- R203 and R204: wrap, saturation, comparison by sign, selection, fields. -/
theorem test_scalar : List.all
  [(0x20000100883f2080, 7, 0, 0, 7), (0x20040900883f2084, 0xffffffff, 2, 0, 1),
   (0x20840900883f2084, 0xffffffff, 2, 0, 0xffffffff), (0x28840900883f2088, 0x80000000, 1, 0, 0x80000000),
   (0x20040900883f208c, 0x10001, 0x10001, 0, 0x20001), (0x28040900883f2090, 0xffffffff, 2, 0, 0xffffffff),
   (0x20040900883f209c, 0xc, 0xa, 0, 8), (0x20040900883f20a0, 0xc, 0xa, 0, 0xe), (0x20040900883f20a4, 0xc, 0xa, 0, 6),
   (0x20040900883f20a8, 3, 0x21, 0, 6), (0x20040900883f20ac, 0x80000000, 0x1f, 0, 1),
   (0x28040900883f20b0, 0x80000000, 0x1f, 0, 0xffffffff), (0x28040900883f20b4, 0xffffffff, 1, 0, 0xffffffff),
   (0x20040900883f20b8, 0xffffffff, 1, 0, 0xffffffff), (0x28240900883f20bc, 0xffffffff, 1, 0, 1),
   (0x20240900883f20bc, 0xffffffff, 1, 0, 0), (0x10420040900883f20c2, 5, 6, 0, 6), (0x10420040900883f20c2, 5, 6, 9, 5),
   (0x28040900883f20c4, 0xabcd1234, 0x810, 0, 0xffffffcd), (0x10420040900883f20ca, 0xaaaaaaaa, 0xcd, 0x810, 0xaacdaaaa),
   (0x20000100883f20cc, 0xf0, 0, 0, 4), (0x20000100883f20d0, 1, 0, 0, 0x1f)]
  onScalars = true := by decide +kernel

/-- The end of the operation that the group has outstanding. -/
def ended (e : Instr) (t : Option State) : Option State :=
  t.bind fun s => match (only s).ops.head? with
    | none => none
    | some o => match exec e (given s (.index2 0 o.id)) with
      | .next u => some u
      | _ => none

def divided (p : Nat × Nat × Nat × Nat × Nat) : Bool :=
  let w (n : Nat) : W32 := BitVec.ofNat 32 n
  decide (scalarOf (ended .multiCycleFormCompletion (run (withS (withS one 0 (w p.2.1)) 2 (w p.2.2.1)) p.1)) 16 = some (w p.2.2.2.2))

/-- R203: quotients truncate; a divisor of 0; the least value by -1. -/
theorem test_divisions : List.all
  [(0x28040900883f2094, 0xfffffff9, 2, 0, 0xfffffffd), (0x20040900883f2094, 7, 0, 0, 0xffffffff),
   (0x28040900883f2094, 0x80000000, 0xffffffff, 0, 0x80000000), (0x28840900883f2094, 0x80000000, 0xffffffff, 0, 0x7fffffff),
   (0x28040900883f2098, 0xfffffff9, 2, 0, 0xffffffff), (0x20040900883f2098, 7, 0, 0, 7)]
  divided = true := by decide +kernel


/-! Worked examples of the specification, one step each. -/

/-- The traced group after an instruction. -/
def groupAfter (s : State) (w : Nat) : Option Group := (run s w).map only

/-- R225: VSCAN.add of 1 under exec 0xF5 writes 1 to 6 into lanes 0, 2, 4, 5, 6, 7, and leaves lane 1. -/
theorem test_scan :
    let t := run (withV (one.modGroup 0 fun g => { g with exec := 0xF5 }) 16 (all 77)) 0x20000181083f0218
    [0, 1, 2, 3, 4, 5, 6, 7].map (laneOf t 16) = [some 1, some 77, some 2, some 77, some 3, some 4, some 5, some 6] := by decide +kernel

/-- R94, spec 09: 2^30 times 4 modulo 2013265921, by PFORM and by Barrett; each form under the other's PFORM traps with reason 0x17. -/
theorem test_modular :
    let s := withV (withV one 5 (all 0x40000000)) 6 (all 2013265921)
    let h (t : State) : State := t.modGroup 0 fun g => { g with xbase := 0x10000 }
    laneOf (run (modular17 s) 0x20061005023F0288) 4 9 = some 0x0FFFFFFE
    ∧ laneOf (run s 0x620061005023F028A) 4 9 = some 0x0FFFFFFE
    ∧ (groupAfter (h s) 0x20061005023F0288).map Group.xcause = some 0x1701
    ∧ (groupAfter (h (modular17 s)) 0x620061005023F028A).map Group.xcause = some 0x1701 := by decide +kernel

/-- Spec 09, a carry into the spill window: 2^511 - 1 plus 1 has 17 limbs; without a window the form traps BIGLEN with 17. -/
theorem test_carry :
    let big : VReg := { val := List.replicate 15 0xFFFFFFFF ++ [0x7FFFFFFF], mark := 0, tag := 16 }
    let s := (withV one 2 big).modGroup 0 fun g => { g with xbase := 0x10000, spwBase := 2 }
    let spills := s.modGroup 0 fun g => { g with spwEn := true }
    let d (t : Option State) : Option VReg := t.bind fun u => (only u).vregs[4]?
    d (run spills 0x60402023F0240) = some { val := List.replicate 15 0 ++ [0x80000000], mark := 0, tag := 17 }
    ∧ d (run s 0x60402023F0240) = (only s).vregs[4]? ∧ (groupAfter s 0x60402023F0240).map Group.xval = some 17 := by decide +kernel

/-- R59, spec 22: p1? VADD v9, v9, v7, where v7 was never written, traps UNINIT with XVAL 7; where no lane qualifies it does not. -/
theorem test_uninit :
    let s := (withV one 7 { cold with mark := 0xFFFF }).modGroup 0 fun g => { g with xbase := 0x10000 }
    let on := s.modGroup 0 fun g => { g with preds := g.preds.set 1 0xFFFF }
    let off := s.modGroup 0 fun g => { g with preds := g.preds.set 1 0 }
    (groupAfter on 0x20001C0904810144).map (fun g => (g.xcause, g.xval, g.pc)) = some (2, 7, 0x10000)
    ∧ (groupAfter off 0x20001C0904810144).map (fun g => (g.xcause, g.pc)) = some ((only s).xcause, 65608) := by decide +kernel

/-- R176, spec 07: reasons and XVAL of a guarded NOP, of a bitwise RED on f32, of an SDIV inside a chain. -/
theorem test_illegalValues :
    let s := one.modGroup 0 fun g => { g with xbase := 0x10000 }
    let x (w : Nat) : Option (W32 × W64) := (groupAfter s w).map fun g => (g.xcause, g.xval)
    x 0x22004 = some (0x0801, 0x1008) ∧ x 0x20040900883fa094 = some (0x1301, 0x0F13) ∧ x 0x4a05008003f06ae = some (0x0901, 0x3409)
    ∧ x (0x3F2000 + 0xE3 * 4) = some (0x0401, 0x204) := by decide +kernel

/-- R368: the record of MARK 3, 0xBEEF. -/
theorem test_mark :
    let s := ({ one with nstime := 0x123456789A } : State).modGroup 0 fun g => { g with slot := 5, quad := 2, ctx := 0x12 }
    ((run s 0xbeef00060dc0003f206d).bind fun t => (t.rings[0]?).bind fun r => r.recs.getLast?) = some 0x123456789A180025_029800000000BEEF := by
  decide +kernel

/-- Spec 22: the records TRAP, CONT and FATAL of an UNINIT trap without a handler, in ring 7. -/
theorem test_fatalRecords :
    let s := ({ one with nstime := 5000008713 } : State).modGroup 0 fun g => { g with core := 7, ctx := 0x12, pc := 0x40000001D8, xbase := 0 }
    (((s.takeTrap 0 false 0x02 0 7 none).rings[7]?).map fun r => r.recs.reverse.take 3)
      = some [0x012A061409600024_0000400000000000, 0x0000000000F00400_000000000000000E, 0x012A061409100024_0000001000000076] := by decide +kernel

/-- Spec 08: CSRX.set s40, s41, STEALMODE with s41 = 1 returns the old mode and turns strict pops on. -/
theorem test_csrxSet :
    (groupAfter (withS one 41 1) 0x00000014_0007_0129_943F_2459).map (fun g => (g.strict, g.sregs[40]?)) = some (true, some 0) := by
  decide +kernel

/-- R27: DIVB s22:s23, p1 to the address 16 bytes on: the lanes that hold go there, the others wait at the next one. -/
theorem test_divb :
    let s := one.modGroup 0 fun g => { g with preds := g.preds.set 1 0x00FF }
    (groupAfter s 0x11818b3f202c).map (fun g => (g.pc, g.exec, g.parked, g.sregs[22]?, g.lanePC[8]?))
      = some (65616, 0xFF, 0xFF00, some 0xFFFF, some 65608) := by decide +kernel

/-- The bytes of memory from an address on. -/
def memoryOf (t : Option State) (a n : Nat) : Option (List Byte) := t.map fun s => (List.range n).map fun i => s.mem.get (a + i)

/-- Spec 16: ST.n32.rel.team [s0:s1 + s34], s35 does not write at its issue; then LDU.n32.acq.team s40 of the same word completes first and
reads the value, since the store to that word comes before it (R124). -/
theorem test_storeThenLoad :
    let t := run (withS one 35 0xDEADBEEF) 0x1144890091BF0298
    let both := (t.bind fun s => run s 0x09448900943F2294).bind fun s => match exec .loadCompletion (given s (.index2 0 1)) with
      | .next u => some u
      | _ => none
    memoryOf t 512 4 = some [0, 0, 0, 0] ∧ memoryOf (ended .storeCompletion t) 512 5 = some [0xEF, 0xBE, 0xAD, 0xDE, 0]
    ∧ scalarOf both 40 = some 0xDEADBEEF ∧ memoryOf both 512 5 = some [0xEF, 0xBE, 0xAD, 0xDE, 0] := by decide +kernel

/-- Spec 16: ATOM.cas of a 64-bit word that is 0, which takes the new value and returns the old one. -/
theorem test_cas :
    let s := withS (withS (withS one 24 0x11111111) 25 0x22222222) 30 1024
    let t := ended .loadCompletion (run (s.modGroup 0 fun g => { g with exec := 1 }) 0x4600000000000180_016479000A3F1EA6)
    memoryOf t 1280 8 = some [0x11, 0x11, 0x11, 0x11, 0x22, 0x22, 0x22, 0x22]
    ∧ (laneOf t 20 0, laneOf t 21 0) = (some 0, some 0) := by decide +kernel

/-- R276: the carry of a loop nest over three limbs. -/
theorem test_nest :
    let s := withS (withS (withS one 20 0x400) 22 0x500) 24 0x600
    let t := { s with mem := array ++ bytesAt 0x500 (List.replicate 12 0xFF) ++ bytesAt 0x600 [1] ++ tables }
    ((ended .streamEngineCompletion (run t 0x4000000000001000000000000400000000000000C0C162842F2F)).map fun u =>
      (List.range 16).map fun i => Memory.get u.mem (0x400 + i)) = some (List.replicate 12 0 ++ [1, 0, 0, 0]) := by decide +kernel

/-- R191, R192: CALL leaves the next address in the link pair; SVC with a handler saves the address after it; ERET goes back to it. -/
theorem test_transfers :
    (groupAfter one 0x2000883f2018).map (fun g => (g.pc, g.sregs[16]?, g.sregs[17]?)) = some (65632, some 65608, some 0)
    ∧ (groupAfter (one.modGroup 0 fun g => { g with xbase := 0x10400 }) 0x180003f2068).map
        (fun g => (g.pc, g.trap, g.xpc, g.xrpc, g.xcause)) = some (0x10400, true, 65600, 65608, 0x0A)
    ∧ (groupAfter trapped1 0x3f2064).map (fun g => (g.pc, g.trap)) = some (65608, false) := by decide +kernel

/-! Witnesses of the values that engines write, and of accesses performed after their issue. -/

/-- FIPS 197, appendix C.3: a block encrypted under a key of 256 bits, and decrypted again. -/
theorem test_aes :
    let key := List.range 32
    let block := (List.range 16).map (17 * ·)
    let out := [0x8e, 0xa2, 0xb7, 0xca, 0x51, 0x67, 0x45, 0xbf, 0xea, 0xfc, 0x49, 0x90, 0x4b, 0x49, 0x60, 0x89]
    aesEncrypt key block = out ∧ aesDecrypt key out = block := by decide +kernel

/-- What an engine reads, and where it writes. -/
def eRead (s : State) (g : Group) (sp : Space) (a : W64) (n : Nat) : Option (State × List Byte) :=
  match s.placeRange 0 g true .engRead sp a n with
  | (s1, ps, none) => some ((charged 1 (s1, []) (devRanges ps)).1, s1.readPlaces ps)
  | _ => none
@[inherit_doc eRead]
def eWrite (s : State) (g : Group) (sp : Space) (a : W64) (bs : List Byte) : Option (State × List (Place × Nat)) :=
  match s.placeRange 0 g true .engWrite sp a bs.length with
  | (s1, qs, none) => some ((charged 1 (s1.writePlaces qs bs, []) (devRanges qs)).1, qs)
  | _ => none

/-- CopyMoves: 64 bytes from one place to another. -/
theorem witness_copyMoves :
    onOp one (opOf 0 (some .xc) (.copy .g .g 1024 256 64)) (fun s g o => o.phase = .queued && !s.copyWaits 0 g o &&
      match eRead s g .g 256 64 with
      | some (s1, bs) => (match eWrite s1 g .g 1024 bs with
        | some (s2, qs) => (s1.rangeIds 0 g .engWrite .g 1024 64).all (fun b => !(s1.rangeIds 0 g .engRead .g 256 64).contains b)
            && !s.heldBack (s2.clearPoison (devRanges qs))
        | none => false)
      | none => false) = true := by decide +kernel

/-- TransformWrites: two words under the modulus of a power word; the inverse of 2. -/
theorem witness_transform :
    let pf : W32 := 0x17DB
    let q := modulusOf pf
    let s0 := { one with cycle := 1, cores := one.cores.modify 0 fun c => { c with ntt := [place 0] } }
    let p (inv : Bool) (d : W64) : Bool :=
      onOp s0 (opOf 0 (some .nt) (.ntt inv d 256 .g .g 1 (BitVec.ofInt 64 (q - 1)) pf)) fun s g o =>
        o.phase = .queued && decide ((place 0).at_ < s.cycle) && decide (0 < q) && decide (q ≤ 2 ^ 64) && decide ((q + 1) / 2 * 2 % q = 1 % q) &&
        match eRead s g .g 256 16 with
        | some (s1, bs) => (match eWrite s1 g .g d bs with
          | some (s2, qs) => (s2.rangeIds 0 g .engRead .g 256 16 = s2.rangeIds 0 g .engWrite .g d 16
                || (s2.rangeIds 0 g .engWrite .g d 16).all fun b => !(s2.rangeIds 0 g .engRead .g 256 16).contains b)
              && !s.heldBack (s2.clearPoison (devRanges qs))
          | none => false)
        | none => false
    (p false 1024 && p true 1024 && p true 256) = true := by decide +kernel

/-- A team whose halves have Boom memory. -/
def boomed : State :=
  { one with cycle := 1, teams := one.teams.map fun t => { t with even := { t.even with boom := 65536 } },
             cores := one.cores.modify 0 fun c => { c with ntt := [place 0] } }

/-- BmulWrites: a header that is rejected; a factor of too many limbs; a destination that is too small; one that is not. -/
theorem witness_bmul :
    let a := hdrOf ((List.range 16).map fun i => ((array.get (256 + i))))
    let d (cap : W32) : LimbHdr := { len := 0, cap := cap, flags := 1, rsvd := 0 }
    let bad : LimbHdr := { a with rsvd := 1 }
    let o (school : Bool) (dh : LimbHdr) : Op :=
      { opOf 0 (some (if school then .mx else .nt)) (.bmul 1024 256 256 .g .g .g dh a a 0 0 school) with
        phase := if school then .started else .queued }
    let p (o : Op) : Bool := onOp boomed o fun s g o =>
      (o.isMx || o.phase = .queued) && decide (65536 ≤ s.boomSize g) &&
      match eRead (s.freeScratch 0 g 0 0 true) g .g 272 4 with
      | some (s1, as) => (match eRead s1 g .g 272 4 with
        | some (s2, bs) => decide (bignum (wordsOf as) * bignum (wordsOf bs) = 25) && !s.heldBack (s2.clearPoison []) &&
            match eWrite s2 g .g 1040 (bytesOf [25]) with
            | some (s3, qs) => (match eWrite s3 g .g 1024 (bytesOf [1, 1, 1, 0]) with
              | some (s4, hs) => !s.heldBack (s4.clearPoison (devRanges (qs ++ hs)))
                  && (s4.rangeIds 0 g .engWrite .g 1024 20).all fun b => !(s4.rangeIds 0 g .engRead .g 256 20).contains b
              | none => false)
            | none => false
        | none => false)
      | none => false
    (!a.bad && !(d 1).bad && !(d 0).bad && bad.bad && !({ a with len := 65537, cap := 65537 } : LimbHdr).bad && decide (one.boomSize (only one) = 0)
      && decide ((place 0).at_ < boomed.cycle) && decide (leastLen 25 = 1) && p (o true (d 1)) && p (o true (d 0)) && p (o true bad)
      && p (o false (d 1)) && p (o false (d 0)) && p (o false bad)) = true := by decide +kernel

/-- A context with an arena of 4 KiB, in which the blocks given are taken. -/
def arenaOf (blocks : List (Nat × Nat)) : Ctx :=
  { id := 0, blocks := blocks, halloced := [], arena := 0x10000, arenaLen := 4096, stock := [], fatal := false }

/-- HallocTakes: of an arena of 4 KiB the lowest block of 64 bytes; beside one that is taken, the next; none of 8 KiB; sizes of 0 and of
too much. -/
theorem witness_halloc :
    ((arenaOf []).take 0).map Prod.fst = some 0x10000 ∧ ((arenaOf [(0x10000, 0)]).take 0).map Prod.fst = some 0x10040
    ∧ ((arenaOf [(0x10000, 0), (0x10040, 0)]).take 1).map Prod.fst = some 0x10080
    ∧ ((arenaOf []).take 7).map Prod.fst = none ∧ ((arenaOf [(0x10000, 6)]).take 0).map Prod.fst = none
    ∧ onOp one (opOf 0 (some .hp) (.halloc 0 none 1)) (fun _ _ o => o.phase = .queued) = true
    ∧ onOp one (opOf 0 (some .hp) (.halloc 0x4000001 (some 2) 1)) (fun _ _ o => o.phase = .queued) = true := by decide +kernel

/-- The descriptor of context 0 gives it an arena of 64 MiB at 64 MiB. -/
def withArena : State := { one with mem := array ++ tables.take 3 ++ [(0x20013, 4), (0x2001B, 4)] ++ tables.drop 3 }

theorem witness_hallocRuns :
    let o := opOf 0 (some .hp) (.halloc 40 (some 2) 5)
    let full : State := { withArena with ctxs := [{ arenaOf [(0x4000000, 20)] with arena := 0x4000000, arenaLen := 0x4000000 }] }
    onOp full o (fun s g o => o.phase = .queued && ((s.arena g.ctx).take 0).isNone) = true
    ∧ onOp withArena o (fun s g o => o.phase = .queued && match (s.arena g.ctx).take 0 with
      | some (a, c) => decide (a = 0x4000000) &&
        match eWrite s g .g (BitVec.ofNat 64 a) (bytesOf [0, BitVec.ofNat 32 ((2 ^ 6 - 16) / 4), 3, 0]) with
        | some (s1, qs) => !s.heldBack ((s1.setCtx { c with halloced := c.halloced ++ [a] }).clearPoison (devRanges qs))
        | none => false
      | none => false) = true := by decide +kernel

/-! Witnesses of faults, of decisions of the die, of records, and of the frames. -/

/-- A request that a class's budget holds back, and one that it does not (EngineFaults). -/
theorem witness_heldBack :
    let s1 := spent.charge 1 [(0, 64)]
    let capped : State := { spent with dies := spent.dies.modify 0 fun d => { d with bwb := [0, 1, 0, 0, 0], bwUsed := [0, 64, 0, 0, 0] } }
    State.heldBack capped (capped.charge 1 [(0, 64)]) = true ∧ spent.heldBack s1 = false ∧ one.heldBack one = false
    ∧ (s1.groups[0]?).isSome = true := by decide +kernel

/-- WaitsOrTraps: a loop nest before which a fault is due. -/
theorem witness_nestOwed :
    let owed := one.modGroup 0 fun g => { g with due := [{ kind := 1, addr := 64 }] }
    nestStall 0 (only owed) (nest 4) owed = 0 ∧ (only owed).due = [{ kind := 1, addr := 64 }] := by decide

/-- SelectionOrder: the slot taken by the second pass of an instruction of the cycle before, free again after it; the core's attempts made. -/
theorem witness_slotTaken :
    let i : Issued := { g := 0, pc := 65600, at_ := 5, two := true, pmc := none }
    let at_ (n : Nat) : State := { one with cycle := n, cores := one.cores.modify 0 fun c => { c with issued := c.issued.set 0 (some i) } }
    let done : State := { one with cores := one.cores.modify 0 fun c => { c with smp := { c.smp with done := 1 } } }
    (State.issuing (at_ 6) 0 0).isSome = true ∧ (State.issuing (at_ 7) 0 0).isNone = true ∧ State.attempted done 0 = true
    ∧ one.attempted 0 = false ∧ (one.issuing 0 0).isNone = true ∧ one.ready 0 (only one) = true := by decide

/-- ResultLanes: a destination that is none, NW, the last scalar register below exec. -/
theorem witness_noResult :
    let x := issueOf one 0x20005008903f2084
    (issueBy one 0x20005008903f2084 fun e => { e with nw := true }).e.nw = true ∧ x.e.nw = false
    ∧ (issueBy one 0x20005008903f2084 fun e => { e with dst := .s 125 }).e.dst = .s 125 ∧ x.g.sregs.length = 128
    ∧ ((∀ k : Fin 256, (Dst.a 0) ≠ .v k) ∧ (∀ k : Fin 128, (Dst.a 0) ≠ .s k) ∧ ∀ k : Fin 48, (Dst.a 0) ≠ .p k) := by decide

/-- FloatCodes: a quotient and a root of numbers that are not 0, of f32. -/
theorem witness_floatOperands :
    let f := fmtOf 0x0A 0
    (match decodeF f 0x40400000, decodeF f 0xBF800000 with
    | .fin false m _, .fin true p _ => m != 0 && p != 0
    | _, _ => false) = true := by decide

/-- PowerTokens: a die with a released token and none that wants one; the same where a quadrant has still to make its attempt; a die
without one. -/
theorem witness_grants :
    let s (g : Group → Group) : State := (given one (.index 0)).modGroup 0 g
    let let_ (s : State) : State := { s with dies := s.dies.modify 0 fun d => { d with released := [3] } }
    let sleeping := let_ (s fun g => { g with wait := .sleep 9 })
    State.tokenDies sleeping = [0] ∧ State.quiet sleeping (fun c => dieOf c = 0) = true ∧ State.tokenDies one = []
    ∧ State.quiet (let_ (s id)) (fun c => dieOf c = 0) = false := by decide

/-- RecordsAndClock: a sample that is due, with room in the memory ring and without; a staged record that a budget holds. -/
theorem witness_due :
    let s (tail : W32) : State :=
      let s0 := given (one.modGroup 0 fun g => { g with wait := .queue }) (.index 0)
      { s0 with cores := s0.cores.modify 0 fun c => { c with smp := { c.smp with en := true, allctx := true, tail := tail } } }
    let smp (s : State) : Option Sampler := (s.cores[0]?).map Core.smp
    let full (m : Sampler) : Bool := (m.tail - m.head).toNat = 2 ^ (m.base.toNat % 16 + 8)
    let held : State := { withOp one (opOf 0 (some .xc) (.copy .g .g 256 512 64)) with
      dies := one.dies.modify 0 fun d => { d with bwb := [0, 0, 0, 0, 1], bwUsed := [0, 0, 0, 0, 64] } }
    (smp (s 0)).map (fun m => (m.en, decide (m.next ≤ (s 0).cycle), full m, (nextSlot 255 ((s 0).sampled 0 0 m)).isSome))
      = some (true, true, false, true)
    ∧ (smp (s 256)).map full = some true ∧ (∀ g ∈ (s 0).groups, g.core = 0 → ((s 0).pick 0 g.quad).isNone = true)
    ∧ one.held 4 [(0x30000, 16)] = false ∧ State.held held 4 [(0x30000, 16)] = true := by decide +kernel

/-- A form has its effect at s, and leaves its group neither trapped nor in a new wait, and its context as it was. -/
def wentOnAt (s : State) (w : Nat) : Bool :=
  clearAt s w && match decode (BitVec.ofNat 256 w) with
  | .ok i => (match exec i s with
    | .next t => !(t.ctx 0).fatal && (match t.groups[0]? with
      | some h => h.trap = (only s).trap && h.wait = (only s).wait
      | none => false)
    | _ => false)
  | .error _ => false

/-- RegisterFrames: forms of each frame after which the group goes on. -/
theorem witness_framesOn :
    List.all [0x5008083f0240, 0x60008083f0268, 0x5118003f0270, 0x46118083f0274, 0x405008083f0290, 0x405008083f0298,
      0x18020405008083f02a6, 0x4405008003f02ae, 0x180003f2038, 0x118003f2030, 0x5008083f0340, 0x180903f2350] (wentOnAt one) = true
    ∧ wentOnAt called1 0x8003f2020 = true ∧ clearAt inPair 0x20004000000000046118903f0306 = true
    ∧ (only one).inline = [] ∧ (∀ p ∈ one.cue.pops, p.g ≠ one.cur) ∧ (∀ o ∈ (only one).ops, o.cls = some .cq → o.phase ≠ .started)
    ∧ (∀ u ∈ one.teams, (∀ w ∈ u.pushWait, w.g ≠ 0) ∧ (∀ w ∈ u.popWait, w.g ≠ 0) ∧ ∀ c ∈ u.claims, c.g ≠ 0) := by decide +kernel

/-- Whether stored bytes lie within one line. -/
def inLineB (p : Place × Nat) : Bool :=
  match p.1 with
  | .dev pa _ => pa % 128 + p.2 ≤ 128
  | _ => true

/-- A group with a store that it has still to perform, and a load. -/
def owing : State :=
  let t : Access := { lane := 0, place := .dev 512 none, n := 4, a := 7, b := 0 }
  let a (k : AccKind) : Acc := { kind := k, ety := 2, ord := 0, scope := 0, uni := none, todo := [t], got := [], wrote := [] }
  one.modGroup 0 fun g => { g with ops := [opOf 0 (some .st) (.mem (a .store)), opOf 1 (some .ld) (.mem (a .load))] }

/-- MemoryFrames: a trap would have a handler; accesses to be performed, which lie within lines; places that a store resolves to, outside the
spill window; no spill word to be written by a pop. -/
theorem witness_memoryFrames :
    let x := issueOf owing 0x405008083f0298
    let r := owing.resolveAll 0 (only owing) .store .g 4 x.addrs
    (only one).trap = false ∧ (only one).xbase ≠ 0 ∧ x.clear owing = true ∧ Memory.wf owing.mem = true
    ∧ (match r.2 with
      | .ok ps => !ps.isEmpty && ps.all fun p => inLineB (p.2, 4) && !(only owing).spills p.2 4
      | .error _ => false) = true
    ∧ (owing.accessOf 0 0 0).isSome = true ∧ (owing.accessOf 0 1 0).isSome = true ∧ (pending owing (only owing)).all inLineB = true
    ∧ (pending owing (only owing)).length = 1 ∧ (only owing).gone = false ∧ (owing.performMove 0 0 0).mem.get 512 = 7
    ∧ (owing.performMove 0 1 0).groups = owing.groups
    ∧ (∀ o ∈ (only owing).ops, o.lands = []) ∧ owing.spillPlace (only owing) 3 = some (.stage 0 false 0 12)
    ∧ (match owing.resolve 0 (only owing) false .atomic .g 256 16 with
      | (_, .ok p) => inLineB (p, 16)
      | _ => false) = true := by decide +kernel

/-- A context with one live line, under a key slot that is empty. -/
def locked (d : BitVec 120) : State :=
  { one with ctxs := [{ id := 0, blocks := [], halloced := [], arena := 0, arenaLen := 0, fatal := false,
                        stock := [{ pa := 0x40000, key := some 3, ord := 1, digest := d, count := 1 }] }] }

theorem lookup_locked (d : BitVec 120) (hd : stockDigest 0 line1 = d) : (locked d).lookup 0 line1 = .error (.noKey (digestLow d)) := by
  have h1 : one.physWhy 0x40000 true = none := by decide
  have h2 : one.physWhy 0x40080 true = none := by decide
  have hk : ((one.keys[3]?).getD none).isNone = true := by decide
  have hp (a : Nat) : (locked d).physWhy a true = one.physWhy a true := rfl
  have hkeys : (locked d).keys = one.keys := rfl
  have hl : (locked d).lineBytes { pa := 0x40000, key := some 3, ord := 1, digest := d, count := 1 }
      = .error (.noKey (digestLow d)) := by
    have hk3 : ((one.keys[(3 : Fin 64).val]?).getD none).isNone = true := hk
    simp only [State.lineBytes, hp, hkeys, h1, h2, hk3, Nat.reduceAdd, if_true]
  have hs : ((locked d).ctx 0).stock = [{ pa := 0x40000, key := some 3, ord := 1, digest := d, count := 1 }] := rfl
  have hf : ((locked d).ctx 0).stock.filter (fun l => l.digest = d)
      = [{ pa := 0x40000, key := some 3, ord := 1, digest := d, count := 1 }] := by
    rw [hs, List.filter_cons_of_pos (by simp), List.filter_nil]
  have hm := filterM_error (fun l => ((locked d).lineBytes l).map fun bs => bs == line1) _ [] _ (by rw [hl]; rfl)
  unfold State.lookup
  simp only [hd, hf, hm, bind, Except.bind]

/-- WaitsEnd: an SKLOOK that compares a line under an empty key slot. -/
theorem witness_lookupLocked : ∃ (s : State) (a : W64), s.lookup 0 line1 = .error (.noKey a) := ⟨_, _, lookup_locked _ rfl⟩

/-! Values of engines: for each claim a state in which the requests that it names can be made, and results worked out by hand. -/

/-- A request of an engine: bytes read or written, ranges that are apart. -/
inductive Req where
  | reads (sp : Space) (a : W64) (n : Nat)
  | puts (sp : Space) (a : W64) (bs : List Byte)
  | apart (srcs dsts : List Rng)

/-- What requests made in turn read, and the state that they lead to. -/
def making (g : Group) : List (Nat × Nat) × State → List Req → Option (List (List Byte) × State)
  | x, [] => some ([], x.2)
  | x, .reads sp a n :: l => match x.2.placeRange 0 g true .engRead sp a n with
    | (s1, ps, none) => (making g (x.1, s1.charge 1 (devRanges ps)) l).map fun r => (s1.readPlaces ps :: r.1, r.2)
    | _ => none
  | x, .puts sp a bs :: l => match x.2.placeRange 0 g true .engWrite sp a bs.length with
    | (s1, qs, none) =>
      let w := x.1 ++ devRanges qs
      making g (w, ((s1.writePlaces qs bs).charge 1 (devRanges qs)).clearPoison w) l
    | _ => none
  | x, .apart srcs dsts :: l =>
    let ids (k : AccK) (rs : List Rng) := rs.flatMap fun r => x.2.rangeIds 0 g k r.1 r.2.1 r.2.2
    if (ids .engWrite dsts).any (ids .engRead srcs).contains then none else making g x l

/-- Requests that the operation of the group can make, with what they read. -/
def made (s : State) (rs : List Req) : Option (List (List Byte)) :=
  (making (only s) ([], s) rs).bind fun r => if s.heldBack r.2 then none else some r.1

/-- A state with bytes at places of the first page. -/
def holds (l : List (Nat × List Byte)) : State :=
  { one with cycle := 1, mem := l.flatMap (fun p => bytesAt p.1 p.2) ++ tables,
             cores := one.cores.modify 0 fun c => { c with ntt := [place 0], mxq := [place 0] } }

/-- The state with the operation, whose event has the input that names it. -/
def atOp (s : State) (o : Op) : State := given (withOp s o) (.index2 0 o.id)

/-- What device memory holds after an event. -/
def after (i : Instr) (s : State) (a n : Nat) : Option (List Byte) :=
  match exec i s with
  | .next t => if s.heldBack t then none else some (t.readDev a n none)
  | _ => none

/-- CrtWrites: RES_0[0] = 10, q = 7, y = 3, M = 5, Q = 11: 30 mod 7 is 2, times 5 is 10. A descriptor without residues; a q of 0. -/
def crt (m q : Nat) : State :=
  holds [(0x400, leBytes 8 0x700 ++ leBytes 8 0x600 ++ leBytes 8 0x500 ++ List.replicate 24 0 ++ leBytes 4 1 ++ leBytes 1 m),
         (0x500, leBytes 8 10), (0x600, leBytes 8 q ++ leBytes 8 3 ++ leBytes 32 5), (0x6C0, leBytes 32 11)]
theorem witness_crt :
    let s (m q : Nat) : State := atOp (crt m q) (opOf 0 (some .nt) (.xcrt 0x400))
    let rs : List Req := [.reads .g 0x400 64, .reads .g 0x600 48, .reads .g 0x6C0 32]
    let got (m q : Nat) (k lo n : Nat) : Option Nat := (made (s m q) rs).bind fun l => l[k]?.map fun bs => field bs lo n
    (made (s 1 7) (rs ++ [.reads .g 0x500 8, .puts .g 0x700 (leBytes 32 10),
      .apart [(.g, 0x400, 64), (.g, 0x600, 48), (.g, 0x6C0, 32), (.g, 0x500, 8)] [(.g, 0x700, 32)]])).isSome = true
    ∧ got 1 7 0 52 1 = some 1 ∧ got 1 7 0 48 4 = some 1 ∧ got 1 7 1 0 8 = some 7 ∧ got 0 7 0 52 1 = some 0 ∧ got 1 0 1 0 8 = some 0
    ∧ after .nttUnitOperationCompletion (s 1 7) 0x700 32 = some (leBytes 32 10) := by decide +kernel

/-- KeySwitches: n = 2, one row, c0 = 1 + 2X, c1 = 3 + 4X, keys 5 + 6X and 7 + 8X: c1 times them is -9 + 38X and -11 + 52X modulo X^2 + 1.
A budget of 5 and a cost of 2, and a budget of 1. -/
def keyed (budget pf : Nat) : State :=
  let s := holds [(0x400, leBytes 4 pf), (0x500, leBytes 8 1 ++ leBytes 8 2), (0x600, leBytes 8 3 ++ leBytes 8 4),
    (0x700, leBytes 8 5 ++ leBytes 8 6 ++ leBytes 8 7 ++ leBytes 8 8)]
  { s with teams := s.teams.map fun t => { t with even := { t.even with cells := bytesAt 256 (leBytes 8 0 ++ leBytes 4 budget) } } }
def cipher : List Byte := List.replicate 16 0 ++ leBytes 8 1 ++ leBytes 8 0x500 ++ leBytes 8 0x600 ++ leBytes 8 0x400 ++ List.replicate 16 0
def switchKey (klev : Nat) : List Byte :=
  leBytes 4 0 ++ leBytes 4 2 ++ leBytes 2 0 ++ leBytes 2 klev ++ leBytes 4 0 ++ leBytes 8 1 ++ leBytes 8 0x700 ++ List.replicate 32 0
theorem witness_keySwitches :
    let s (budget pf klev : Nat) : State := atOp (keyed budget pf) (opOf 0 (some .nt) (.kswitch 256 0 cipher (switchKey klev)))
    let q : Nat := 2 ^ 31 - 2 ^ 27 + 1
    let rs : List Req := [.reads .g 0x400 4, .reads .s 256 16]
    let out (a b : Nat) : List Byte := leBytes 8 a ++ leBytes 8 b
    modulusOf 0x17DB = q ∧ keyBad cipher (switchKey 1) = false ∧ keyBad cipher (switchKey 0) = true
    ∧ (made (s 5 0x17DB 1) rs).bind (fun l => l[1]?.map fun bs => field bs 8 4) = some 5
    ∧ (made (s 1 0x17DB 1) rs).bind (fun l => l[1]?.map fun bs => field bs 8 4) = some 1
    ∧ (made (s 5 0 1) (rs.take 1)).bind (fun l => l[0]?.map fun bs => field bs 0 4) = some 0
    ∧ (made (s 5 0x17DB 1) (rs ++ [.puts .s 256 (leBytes 8 0 ++ leBytes 8 3), .reads .g 0x500 16, .reads .g 0x600 16, .reads .g 0x700 16,
        .reads .g 0x710 16, .puts .g 0x500 (out (q - 8) 40), .puts .g 0x600 (out (q - 11) 52),
        .apart [(.g, 0x400, 4), (.g, 0x700, 16), (.g, 0x710, 16)] [(.s, 256, 16), (.g, 0x500, 16), (.g, 0x600, 16)],
        .apart [(.g, 0x600, 16)] [(.g, 0x500, 16)], .apart [(.g, 0x500, 16)] [(.g, 0x600, 16)]])).isSome = true
    ∧ after .nttUnitOperationCompletion (s 5 0x17DB 1) 0x500 16 = some (out (q - 8) 40)
    ∧ after .nttUnitOperationCompletion (s 5 0x17DB 1) 0x600 16 = some (out (q - 11) 52)
    ∧ after .nttUnitOperationCompletion (s 1 0x17DB 1) 0x500 16 = some (out 1 2) := by decide +kernel

/-- CarriesResolve: elements 5 and 1 at weights of 2^16: 0x10005; with ACC and OFF 1 its product with 2^32 is added to 5. A count of 0, a
header that is rejected, a capacity of 1. -/
def resolving (cap : Nat) (acc : Bool) (n : Nat) : State :=
  let s := holds [(256, leBytes 4 1 ++ leBytes 4 cap ++ leBytes 4 1 ++ leBytes 4 0 ++ leBytes 4 5)]
  let o := opOf 0 (some .mx) (.cres 256 .g (if acc then 2 ^ 48 + 2 ^ 32 else 0) 0 n)
  atOp (s.modGroup 0 fun g => { g with acc := [(0, 5), (4, 1)] }) o
theorem witness_cres :
    let w := Instr.matrixOperationCompletion
    (only (resolving 17 true 2)).mxIdle 0 = true ∧ Memory.wf [(0, (5 : Byte)), (4, 1)] = true
    ∧ leastLen 0x10005 = 1 ∧ leastLen (5 + 0x10005 * 2 ^ 32) = 2
    ∧ (made (resolving 17 false 2) [.reads .g 256 16, .puts .g 272 (leBytes 4 0x10005), .puts .g 256 (bytesOf [1, 17, 1, 0])]).isSome = true
    ∧ (made (resolving 17 true 2) [.reads .g 256 16, .reads .g 272 4, .puts .g 272 (leBytes 8 (5 + 0x10005 * 2 ^ 32)),
        .puts .g 256 (bytesOf [2, 17, 1, 0])]).isSome = true
    ∧ after w (resolving 17 false 2) 256 20 = some (bytesOf [1, 17, 1, 0, 0x10005])
    ∧ after w (resolving 17 true 2) 256 24 = some (bytesOf [2, 17, 1, 0, 5, 0x10005])
    ∧ after w (resolving 1 true 2) 256 24 = some (bytesOf [1, 1, 1, 0, 5, 0])
    ∧ (hdrOf (bytesOf [1, 0, 1, 0])).bad = true ∧ (hdrOf (bytesOf [1, 17, 1, 0])).bad = false := by decide +kernel

/-- MatrixProducts: R89's example: sixteen products of 0.5, added to 2^24 in row 0 and column 0, give 2^24 + 8; with exponents of -3 and -2,
2^24 and 2^24 + 2. A in registers, in bf16. -/
def example89 : MxArgs :=
  { ctl := BitVec.ofNat 54 (9 * 2 ^ 49 + 9 * 2 ^ 44), rows := 1, aRegs := [List.replicate 8 0x3F003F00], aAddr := 0, bAddr := 0, scAddr := 0 }
def product89 : State :=
  let s := headOf (opOf 0 (some .mx) (.mxmac example89))
  let b : Memory := (List.range 16).flatMap fun k => [(2 * k, (0x80 : Byte)), (2 * k + 1, 0x3F)]
  { s with groups := s.groups.map fun g => { g with acc := [(2, 0x80), (3, 0x4B)] }
           teams := s.teams.map fun t => { t with even := { t.even with boom := 65536, boomCells := b } } }
theorem witness_products :
    let s := product89
    (match s.mxHead 0 with
    | some (gi, id, g, o) => decide (o.body = .mxmac example89) && s.mxServes 0 && g.mxTurn id && Memory.wf g.acc && decide (example89.mode = 0)
        && readable (s.readRange gi g true .engRead .b 0 4096)
    | none => false) = true
    ∧ (let sum (k : Int) : Nat := floatCell (List.replicate 16 (scaleV (mulV (decodeF (fmtOf 9 0) 0x3F00) (decodeF (fmtOf 9 0) 0x3F80)) k)) 0x4B800000
       sum 0 = 0x4B800004 ∧ sum (-3) = 0x4B800000 ∧ sum (-2) = 0x4B800001)
    ∧ fmtOf 9 0 = fmtOf (example89.f 127 123) (example89.f 117 115) := by decide +kernel

/-- NestRuns: R276's example: three limbs of ones and 1 give three limbs of 0 and the carry. -/
def nest276 : State :=
  let s := holds [(0x900, List.replicate 12 0xFF), (0xA00, [1])]
  atOp s (opOf 0 (some .ln) (.nest (nestOf 0x4000000000001000000000000400000000000000C0C162842F2F) 0x800 0x900 0xA00
    [1, 0, 0, 0, 0, 1, 0, 0, 0, 0, 1, 0, 0, 0, 0] 0))
theorem witness_nestRuns :
    let step (i : Nat) : List Req := [.reads .g (0x900 + BitVec.ofNat 64 (4 * i)) 4, .reads .g (0xA00 + BitVec.ofNat 64 (4 * i)) 4,
      .puts .g (0x800 + BitVec.ofNat 64 (4 * i)) [0, 0, 0, 0]]
    let rng (a : W64) (n : Nat) : List Rng := (List.range n).map fun i => (.g, a + BitVec.ofNat 64 (4 * i), 4)
    (made nest276 ((List.range 3).flatMap step ++ [.puts .g 0x80C [1, 0, 0, 0], .apart (rng 0x900 3 ++ rng 0xA00 3) (rng 0x800 4)])).isSome
      = true
    ∧ after .streamEngineCompletion nest276 0x800 16 = some (bytesOf [0, 0, 0, 1]) := by decide +kernel

/-- Gathers: R252's example: rows 1 and 2 of ROWPTR = 0, 2, 2, 5, 6; with a capacity of 2 it ends with OVERCAP; a descriptor with a VSIZE
of 5, and a row whose bounds are in the wrong order. -/
def gathering (vs cap : Nat) (rows : List W32) : State :=
  let s := holds [(0x400, leBytes 8 0x500 ++ leBytes 8 0x540 ++ leBytes 8 0x580 ++ leBytes 8 0x600 ++ leBytes 8 0x640 ++ leBytes 4 0
      ++ leBytes 4 vs ++ leBytes 4 cap), (0x500, bytesOf rows), (0x540, bytesOf [1, 3, 0, 2, 3, 1]),
    (0x580, bytesOf [10, 11, 12, 13, 14, 15])]
  atOp s (opOf 0 (some .xc) (.gather 0x400 false false false 1 2))
theorem witness_gathers :
    let r := [0, 2, 2, 5, 6]
    let e (i k : Nat) (c v : W32) : List Req :=
      let at_ (a : W64) (i : Nat) : W64 := a + BitVec.ofNat 64 (4 * i)
      [.reads .g (at_ 0x540 i) 4, .reads .g (at_ 0x580 i) 4, .puts .g (at_ 0x600 k) (bytesOf [c]), .puts .g (at_ 0x640 k) (bytesOf [v])]
    let row (i : W64) : List Req := [.reads .g (0x500 + 4 * i) 4, .reads .g (0x504 + 4 * i) 4]
    let x := Instr.copyOperationCompletion
    (made (gathering 4 8 r) ([.reads .g 0x400 64] ++ row 1 ++ row 2 ++ e 2 0 0 12 ++ e 3 1 2 13 ++ e 4 2 3 14
      ++ [.puts .g 0x434 (bytesOf [3, 0]), .apart [(.g, 0x400, 64), (.g, 0x504, 12), (.g, 0x548, 12), (.g, 0x588, 12)]
        [(.g, 0x600, 12), (.g, 0x640, 12)]])).isSome = true
    ∧ (gathering 4 8 r).copyWaits 0 (only (gathering 4 8 r)) (opOf 0 (some .xc) (.gather 0x400 false false false 1 2)) = false
    ∧ after x (gathering 4 8 r) 0x600 12 = some (bytesOf [0, 2, 3]) ∧ after x (gathering 4 8 r) 0x640 12 = some (bytesOf [12, 13, 14])
    ∧ after x (gathering 4 8 r) 0x434 8 = some (bytesOf [3, 0]) ∧ after x (gathering 4 2 r) 0x434 8 = some (bytesOf [2, 2])
    ∧ after x (gathering 4 2 r) 0x600 12 = some (bytesOf [0, 2, 0]) ∧ after x (gathering 5 8 r) 0x434 8 = some (bytesOf [0, 3])
    ∧ after x (gathering 4 8 [0, 2, 2, 1]) 0x434 8 = some (bytesOf [0, 3]) := by decide +kernel

/-- Chains: a record that is copied, and the next, which is not handed over; one that is invalid, with a CTRL of 0x81. -/
def chained (ctrl : Nat) : State :=
  let rec1 (ctrl n next : Nat) : List Byte :=
    List.replicate 20 0 ++ leBytes 4 ctrl ++ leBytes 4 0xFF ++ leBytes 4 n ++ leBytes 8 0x600 ++ leBytes 8 0x700 ++ leBytes 8 next
  let s := holds [(0x400, rec1 1 8 0x480), (0x480, rec1 ctrl 4 0), (0x600, [1, 2, 3, 4, 5, 6, 7, 8])]
  atOp s (opOf 0 (some .xc) (.walk 0x400 0))
theorem witness_chains :
    let x := Instr.copyOperationCompletion
    let rs : List Req := [.reads .g 0x400 64, .reads .g 0x600 8, .apart [(.g, 0x600, 8)] [(.g, 0x700, 8)],
      .puts .g 0x700 [1, 2, 3, 4, 5, 6, 7, 8], .puts .g 0x414 (bytesOf [0, 0]), .reads .g 0x480 64]
    (made (chained 0) rs).isSome = true ∧ (made (chained 0x81) (rs ++ [.puts .g 0x494 (bytesOf [0x80, 3])])).isSome = true
    ∧ (chained 0).copyWaits 0 (only (chained 0)) (opOf 0 (some .xc) (.walk 0x400 0)) = false ∧ (chained 0).capped = false
    ∧ after x (chained 0) 0x700 8 = some [1, 2, 3, 4, 5, 6, 7, 8] ∧ after x (chained 0) 0x414 8 = some (bytesOf [0, 0])
    ∧ after x (chained 0) 0x494 8 = some (bytesOf [0, 0xFF]) ∧ after x (chained 0x81) 0x494 8 = some (bytesOf [0x80, 3])
    ∧ after x (chained 1) 0x494 8 = some (bytesOf [0, 0]) := by decide +kernel

/-- StockCounts: the count of a live line raised; lowered to 0; a name that is not live. -/
theorem witness_counts :
    let n : Name := (1 : Byte) ++ (77 : BitVec 120)
    let s (o : Op) : State := atOp (stocked 77 1 0x40000) o
    let counts (up : Bool) (m : Name) : Option (List W32) :=
      match exec .stockOperationCompletion (s (opOf 0 (some .sk) (.skref up m))) with
      | .next t => some ((t.ctx 0).stock.map StockLine.count)
      | _ => none
    counts true n = some [2] ∧ counts false n = some [] ∧ counts false 0 = some [1] ∧ counts true (n + 2 ^ 120) = some [1]
    ∧ ((s (opOf 0 (some .sk) (.skld n none 8))).stockLine 0 n).isSome = true := by decide +kernel

/-- A lookup that matches a live line of zeros. -/
theorem witness_lookupMatches : ∃ (s : State) (line : List Byte) (l : StockLine),
    (∀ m ∈ (s.ctx 0).stock, s.lineBytes m = .ok line) ∧ (s.ctx 0).stock.find? (fun m => decide (m.digest = stockDigest 0 line)) = some l := by
  generalize hl : one.readDev 0x40000 128 none ++ one.readDev 0x40080 128 none = line
  generalize hd : stockDigest 0 line = d
  refine ⟨stocked d 1 0x40000, line, { pa := 0x40000, key := none, ord := 1, digest := d, count := 1 }, fun m hm => ?_, ?_⟩
  · rw [stocked_stock] at hm
    obtain ⟨k, -, rfl⟩ := List.mem_map.1 hm
    rw [lineBytes_stocked _ _ _ rfl rfl, hl]
  · rw [stocked_stock, hd]
    simp

/-- A context with a page of the Stock class, and no live line. -/
def stockPage : State :=
  { one with mem := array ++ [(0x20001, 0x10), (0x20002, 2), (0x20008, 1), (0x21000, 1), (0x21001, 0x20), (0x21002, 2), (0x22000, 1),
      (0x22001, 0x30), (0x22002, 2), (0x23000, 1), (0x23001, 0x40), (0x23002, 2), (0x24000, 1), (0x24001, 0x50), (0x24002, 2), (0x25000, 0x13), (0x25002, 4),
      (0x25006, 0x80)] }
theorem leaves_down (s : State) (l table next : Nat) (w : W64) (x : W64 × Nat) (h1 : (s.physWhy (table + 8 * 0) true).isSome = false)
    (h2 : BitVec.ofNat 64 (leNat (s.readDev (table + 8 * 0) 8 none)) = w) (h3 : (!w.getLsbD 0 || entryBad w (l + 1)) = false)
    (h4 : w.getLsbD 1 = false) (h5 : (if l = 0 then w.toNat % 2 ^ 52 / 2 ^ 8 * 2 ^ 8 else w.toNat % 2 ^ 52 / 2 ^ 12 * 2 ^ 12) = next)
    (hx : x ∈ s.leaves l next) : x ∈ s.leaves (l + 1) table := by
  rw [State.leaves]
  refine List.mem_flatMap.2 ⟨0, by simp, ?_⟩
  simp only [h1, h2, h3, h4, h5, Bool.false_eq_true, if_false]
  exact hx

theorem leaves_stockPage : (0x80000000040013#64, 16) ∈ stockPage.leaves 4 0x21000 := by
  refine leaves_down _ 3 _ 0x22000 0x22001 _ (by decide) (by decide) (by decide) (by decide) (by decide) ?_
  refine leaves_down _ 2 _ 0x23000 0x23001 _ (by decide) (by decide) (by decide) (by decide) (by decide) ?_
  refine leaves_down _ 1 _ 0x24000 0x24001 _ (by decide) (by decide) (by decide) (by decide) (by decide) ?_
  refine leaves_down _ 0 _ 0x25000 0x25001 _ (by decide) (by decide) (by decide) (by decide) (by decide) ?_
  have h1 : (stockPage.physWhy (0x25000 + 8 * 0) true).isSome = false := by decide
  have h2 : BitVec.ofNat 64 (leNat (stockPage.readDev (0x25000 + 8 * 0) 8 none)) = 0x80000000040013#64 := by decide
  have h3 : (!(0x80000000040013#64).getLsbD 0 || entryBad 0x80000000040013#64 0) = false := by decide
  have h4 : (0x80000000040013#64).getLsbD 1 = true := by decide
  rw [State.leaves]
  refine List.mem_flatMap.2 ⟨0, by simp, ?_⟩
  simp only [h1, h2, h3, h4, Bool.false_eq_true, if_false, if_true]
  exact List.mem_singleton.2 rfl

/-- A lookup that finds a free line. -/
theorem witness_lookupAllocates : (stockPage.ctx 0).stock = [] ∧ ∃ p, p ∈ stockPage.stockLines 0 := by
  have hd : stockPage.ctxDesc 0 = some { root := 0x21000, en := true, ok := true, arena := 0, arenaLen := 0 } := by decide
  refine ⟨by decide, (0x40000, none), ?_⟩
  rw [State.stockLines, hd]
  refine List.mem_flatMap.2 ⟨_, leaves_stockPage, ?_⟩
  have h1 : ((0x80000000040013#64).extractLsb' 55 2 != 1) = false := by decide
  have h2 : (0x80000000040013#64).getLsbD 57 = false := by decide
  simp only [h1, h2, Bool.false_eq_true, if_false]
  exact List.mem_filter.2 ⟨List.mem_map.2 ⟨0, by decide, by decide⟩, by decide⟩

/-! Witnesses of clauses of other statements. -/

/-- Copies: an XREG of a group that is in its team's count and has been taken away, and of one that is beyond the count. -/
theorem witness_registersGone :
    let w := 0x60118003f22ce
    let s := one.modGroup 0 fun g => { g with nGroups := 2 }
    let x := issueBy s w fun e => { e with sb := .int 1 }
    x.clear s = true ∧ (addrIn x (spaceOf (x.e.ctlF 118 116)) x.e.sa).toNat % 4 = 0
    ∧ State.mate s 0 (only s) (x.word x.e.sb x.ul) = none ∧ (only one).nGroups = 1
    ∧ ((issueBy one w fun e => { e with sb := .int 1 }).word (.int 1) 0).toNat = 1 := by decide

/-- LoadsAndStores: a PREF whose lines resolve, one whose class is held, one that finds no walker. -/
theorem witness_prefetches :
    let w := 0x5008003f02b4
    let r (s : State) : State × List Place × Option (Nat × List (Nat × Nat)) := preferred (issueOf s w) s
    let held (s : State) : Bool := (r s).1.held 0 (devRanges ((r s).2.1.map fun p => (p, 128)))
    List.all [one, spent, busy] (clearAt · w) = true ∧ (r one).2.2 = none ∧ held one = false ∧ (r spent).2.2 = none ∧ held spent = true
    ∧ (r busy).2.2.isSome = true := by decide +kernel

/-- An invalidation of a line of host memory that is to be performed. -/
theorem witness_inval :
    let t : Access := { lane := 0, place := .host 512, n := 1, a := 0, b := 0 }
    let a : Acc := { kind := .inval, ety := 0, ord := 0, scope := 2, uni := none, todo := [t], got := [], wrote := [] }
    let s := withOp one (opOf 0 (some .st) (.mem a))
    (s.accessOf 0 0 0).map (fun x => (x.2.1, x.2.2)) = some (a, t) := by decide

/-- A die whose engine class has a budget of 64 bytes in a microsecond, while a sample waits to be written. -/
def narrow : State :=
  { one with
    dies := one.dies.modify 0 fun d => { d with bwb := [0, 1, 0, 0, 0] }
    cores := one.cores.modify 0 fun c => { c with smp := { c.smp with staging := [0] } } }

/-- CopyMoves: of 256 bytes the first line is copied and the second held. -/
theorem witness_copyPieces :
    onOp narrow (opOf 0 (some .xc) (.copy .g .g 1024 256 256)) (fun s g o => o.phase = .queued && !s.copyWaits 0 g o && s.capped &&
      (s.rangeIds 0 g .engWrite .g 1024 256).all (fun b => !(s.rangeIds 0 g .engRead .g 256 256).contains b) &&
      match eRead s g .g 256 128 with
      | some (s1, bs) => (match eWrite s1 g .g 1024 bs with
        | some (u, _) => (match eRead u g .g 384 128 with
          | some (v, cs) => (match eWrite v g .g 1152 cs with
            | some (w, _) => !s.heldBack u && u.heldBack w
            | none => false)
          | none => false)
        | none => false)
      | none => false) = true := by decide +kernel

/-- StepRunsDecoded: the agenda lets time pass while a group can issue; a group that was to try again has its turn. -/
theorem witness_elapseIssues :
    let s : State := { atNop with agenda := [.elapse 5] }
    let again := s.modGroup 0 fun g => { g with wait := .again 17 s.cycle [] }
    s.dueMove.isNone = true ∧ s.pickAny.map Prod.fst = some 0 ∧ (State.atTurn s 0).groups[0]? = some (only s)
    ∧ ((State.atTurn again 0).groups[0]?).map Group.wait = some .ready ∧ ((State.atTurn s 0).groups[0]?).map Group.redo = some [] := by decide

/-- SelectionOrder: a group that holds a chain and waits, and no other. -/
theorem witness_chainWaits :
    let s := one.modGroup 0 fun g => { g with
      chain := some { pos := 1, first := 65600, hist := [.none], reads := [] }, wait := .again 17 one.cycle [] }
    (only s).active = true ∧ (only s).atIssue = true ∧ (only s).chain.isSome = true ∧ State.ready s 0 (only s) = false
    ∧ (State.pick s 0 0).isNone = true := by decide

/-- Translation: a fetch of a group that was to try again. -/
theorem witness_fetchAgain : fetches (busy.modGroup 0 fun g => { g with wait := .ready }) = 5
    ∧ (only (busy.modGroup 0 fun g => { g with wait := .again 17 0 [] })).hasBlock = false := by decide +kernel

/-- HostSide: a chunk of an image sent first at offset 64, and the whole of it. -/
theorem witness_stages :
    let all (st : List (Option Byte)) (n : Nat) (bs : List Byte) : List (Option Byte) :=
      st.take n ++ List.replicate (n - st.length) none ++ bs.map some ++ st.drop (n + bs.length)
    let whole (l : List (Option Byte)) : Bool := (List.range (max 64 (imageLen (l.map fun b => b.getD 0)))).all fun i => (l[i]?.join).isSome
    let late := all [] 64 (noRecords.drop 64)
    whole late = false ∧ whole (all late 0 (noRecords.take 64)) = true
    ∧ (all late 0 (noRecords.take 64)).map (fun b => b.getD 0) = noRecords ∧ one.staged = [] := by decide +kernel
/-! Witnesses of the clauses on chains and traps, on loads from K, on poison, on held registers and operations, on waiting pairs and on
counters. -/

/-- Two groups of one quadrant: the first holds a chain; the second, at trap level, last issued in cycle 0. -/
def chainBeside (f : Group → Group) : State :=
  let g := only one
  { one with
    cycle := 4
    groups := [{ g with chain := some { pos := 1, first := 65600, hist := [.none], reads := [] }, since := 4 },
               f { g with slot := 1, trap := true, since := 0 }] }

/-- SelectionOrder: trap level is owed a slot, is not yet, waits for another reason, and holds a chain of its own. -/
theorem witness_owed :
    let owed (n : Nat) : State := chainBeside fun g => { g with since := n }
    let stuck : State := chainBeside fun g => { g with wait := .queue }
    let both : State := chainBeside fun g => { g with chain := some { pos := 1, first := 65600, hist := [.none], reads := [] } }
    ((owed 0).pick 0 0).map (·.1) = some 1 ∧ ((owed 3).pick 0 0).map (·.1) = some 0 ∧ (stuck.pick 0 0).map (·.1) = some 0
    ∧ (both.pick 0 0).map (·.1) = some 1 ∧ (owed 0).ready 1 (((owed 0).groups[1]?).getD (only one)) = true
    ∧ (only (owed 0)).slotCycles = 1 ∧ (owed 0).attempted 0 = false := by decide

/-- A constant block that begins four bytes before the end of a page, whose neighbour lies elsewhere. -/
def blockAt (s : State) (const : W64) : State :=
  { s with
    grids := s.grids.map fun r => { r with packet := { r.packet with const := const, constsize := 1024 } }
    mem := s.mem ++ bytesAt 0x2FFFC [1, 0, 0, 0] ++ bytesAt 0x50000 [2, 0, 0, 0]
    cores := s.cores.modify 0 fun c =>
      let l (v f : Nat) : Tlb := { ctx := 0, vpage := v, bits := 16, leaf := BitVec.ofNat 64 f }
      { c with tlb1 := [[l 2 0x20033, l 3 0x50033] ++ c.tlb1.headD [], [], [], []] } }

/-- LoadsAndStores: loads from K whose words lie in two pages, that fault, and whose class is held. -/
theorem witness_constants :
    let w := 0x405008083f0290
    let k (s : State) : Iss := issueBy s w fun e => { e with mod := 0x806 }
    let ways (s : State) : Nat := match s.constPlaces 0 (only s) 8 [(0, 0), (1, 8)] with
      | (s1, .ok ps) => if s1.held 0 (devRanges (ps.flatMap Prod.snd)) then 2
        else if ps.map (fun p => (p.1, p.2.flatMap fun q => s1.readAt q.1 q.2)) = [(0, [1, 0, 0, 0, 2, 0, 0, 0]), (1, List.replicate 8 0)] then 1 else 0
      | (_, .error (.mem _ _)) => 3
      | _ => 4
    spc (k (blockAt one 0x2FFFC)).e = .k ∧ (k (blockAt one 0x2FFFC)).clear (blockAt one 0x2FFFC) = true
    ∧ ways (blockAt one 0x2FFFC) = 1 ∧ ways (blockAt spent 256) = 2 ∧ ways one = 3 := by decide +kernel

/-- LoadsAndStores, R118: a store of a whole poisoned line comes before a load of the same group; one of half a line leaves the poison. -/
def poisoned (lanes : Nat) : State :=
  let t (i : Nat) : Access := { lane := i, place := .dev (1024 + 8 * i) none, n := 8, a := i, b := 0 }
  let a : Acc := { kind := .store, ety := 6, ord := 0, scope := 2, uni := none, todo := (List.range lanes).map t, got := [],
                   wrote := (List.range lanes).map fun i => (1024 + 8 * i, 8) }
  { withOp one (opOf 0 (some .st) (.mem a)) with poison := [8, 9] }

theorem witness_poison :
    (poisoned 16).poison ≠ [] ∧ ((poisoned 16).settlePoison 0 .load).poison = [9]
    ∧ ((poisoned 15).settlePoison 0 .load).poison = [8, 9] ∧ ((poisoned 16).settlePoison 0 .store).poison = [8, 9] := by decide +kernel

/-- OperationsEnd, R251: an operation that is to write a register into which a copy has still to land waits, and so does a pop. -/
theorem witness_held :
    let o : Op := { opOf 0 (some .ld) .plain with hold := [.v 8] }
    let s := given (one.modGroup 0 fun g => { g with ops := [o, opOf 1 (some .xc) (.regIn .g 256 0 8 1)] }) (.index2 0 0)
    let p : QPop := { g := 0, q := 0, lanes := 1, dst := .v 8, nw := false }
    let q (s : State) : State := { s with teams := s.teams.map fun t => { t with queues := t.queues.set 0 [{ val := [], by_ := 0 }], popWait := [p] } }
    (only s).op? 0 = some o ∧ s.unguarded 0 o.hold = false ∧ ((q s).queueStep 0 0).isSome = false
    ∧ ((q one).queueStep 0 0).isSome = true := by decide

/-- OperationsEnd: of 256 bytes a budget of 64 lets as many be charged. -/
theorem witness_pay :
    let s := { withOp narrow (opOf 0 (some .xc) (.copy .g .g 1024 256 256)) with cycle := 0 }
    let t := State.pay s (State.charge s 1 [(0, 256)]) 0 0
    s.usedOn 1 0 = 0 ∧ s.leftOn 1 0 = some 64 ∧ (State.charge s 1 [(0, 256)]).usedOn 1 0 = 256
    ∧ ((only t).op? 0).map Op.paid = some [(0, 64)] ∧ t.usedOn 1 0 = 64
    ∧ charged 1 (s, [(0, 64)]) [(0, 256)] = (State.charge s 1 [(0, 192)], [(0, 0)]) := by decide +kernel

/-- WaitsEnd: a pair that waits for room, behind which later MXPAIRs are paired; the same with room. -/
theorem witness_pairsBehind :
    let w (k n : Nat) (p : Bool) : PairWait := { g := k, op := n, at_ := 0, paired := p }
    let s (later : Bool) : State := { twoHalves with
      groups := twoHalves.groups.map fun g => { g with ops := g.ops ++ g.ops.map fun o => { o with id := 1 } }
      teams := twoHalves.teams.map fun t => { t with
        pairEven := w 0 0 true :: if later then [w 0 1 false] else [], pairOdd := w 1 0 true :: if later then [w 1 1 false] else [] } }
    let after (s : State) : Option (List (List Bool)) := match exec .mxpairPairing s with
      | .next t => t.teams.head?.map fun t => [t.pairEven.map PairWait.paired, t.pairOdd.map PairWait.paired]
      | _ => none
    after (s true) = some [[true, true], [true, true]] ∧ after (s false) = some [[], []]
    ∧ ((s false).teams.map fun t => t.lost) = [none] := by decide +kernel

/-- RecordsAndClock: events of a cycle that a counter has still to take, past its last value too, and where an instruction has written it; a
group whose fetch waits. -/
theorem witness_counts48 :
    let s (n : BitVec 48) (wrote : Option (Nat × BitVec 48)) : State :=
      { one.modGroup 0 (fun g => { g with pmctl := 3, pmc := (g.pmc.set 0 n).set 1 5, pmsel := (g.pmsel.set 0 13).set 1 4, wait := .queue }) with
        cores := one.cores.modify 0 fun c => { c with issued := c.issued.set 0 (some { g := 0, pc := 65600, at_ := one.cycle, two := false, pmc := wrote }) } }
    let t (n : BitVec 48) (w : Option (Nat × BitVec 48)) : State := ((s n w).countEv 0 13 3).commit 0
    let held := one.modGroup 0 fun g => { g with fetched := none, wait := .again 17 one.cycle [] }
    (only (s 9 none)).pmsel.length = 8 ∧ (only (s 9 none)).pmc.length = 8 ∧ (only ((s 9 none).countEv 0 13 3)).pend = [(0, 13, 3)]
    ∧ (only ((s 9 none).countEv 0 13 3)).pmc[0]? = some 9
    ∧ ((only (t 9 none)).pmc.take 2, (only (t 9 none)).pmovf) = ([12, 5], 0)
    ∧ ((only (t 0xFFFFFFFFFFFE none)).pmc.take 2, (only (t 0xFFFFFFFFFFFE none)).pmovf) = ([1, 5], 1)
    ∧ ((only (t 7 (some (0, 0xFFFFFFFFFFFE)))).pmc.take 2, (only (t 7 (some (0, 0xFFFFFFFFFFFE)))).pmovf) = ([7, 5], 1)
    ∧ (only held).upcoming = none ∧ held.reasonOf 0 (only held) = 1 := by decide +kernel

/-- R76, R225: VSCAN.min of f32 quiets a lone signalling NaN. -/
theorem test_scanQuiet :
    laneOf (run (withV one 8 (all 0x7FA00001)) 0x50000008083f0618) 16 3 = some 0x7FE00001 := by decide +kernel

/-- A lookup that matches the one line of its context, whose bytes no budget has left. -/
def broke (d : BitVec 120) : State :=
  { stocked d 1 0x3C000 with
    dies := one.dies.map fun d => { d with bwb := [0, 1, 0, 0, 0], bwUsed := [0, 64, 0, 0, 0] }
    cores := one.cores.modify 0 fun c => { c with smp := { c.smp with staging := [0] } } }

theorem broke_held (d : BitVec 120) :
    (broke d).heldBack (charged 1 ((broke d).stepCount 0
      { pa := 0x3C000, key := none, ord := 1, digest := d, count := 1 } true, []) [(0x3C000, 256)]).1 = true := by cbv

/-- Its line. -/
def brokeLine (d : BitVec 120) : StockLine := { pa := 0x3C000, key := none, ord := 1, digest := d, count := 1 }

theorem broke_stock (d : BitVec 120) : ((broke d).ctx 0).stock = [brokeLine d] := rfl

theorem broke_lineBytes (d : BitVec 120) : (broke d).lineBytes (brokeLine d) = .ok (List.replicate 256 0) := by
  have h1 : (broke 0).physWhy 0x3C000 true = none := by decide
  have h2 : (broke 0).physWhy 0x3C080 true = none := by decide
  have h3 : (broke 0).readDev 0x3C000 128 none ++ (broke 0).readDev 0x3C080 128 none = List.replicate 256 0 := by decide
  simp only [State.lineBytes, brokeLine, show ∀ a r, (broke d).physWhy a r = (broke 0).physWhy a r from fun _ _ => rfl,
    show ∀ a k, (broke d).readDev a k none = (broke 0).readDev a k none from fun _ _ => rfl, h1, h2, Bool.false_eq_true, if_false,
    Nat.reduceAdd, h3]

theorem broke_lookup (d : BitVec 120) (line : List Byte) (hl : line = List.replicate 256 0) (hd : stockDigest 0 line = d) :
    (broke d).lookup 0 line = .ok ((broke d).stepCount 0 (brokeLine d) true, some ((1 : Byte) ++ d)) := by
  have hm : [brokeLine d].filterM (fun l => ((broke d).lineBytes l).map fun bs => bs == line) = .ok [brokeLine d] := by
    simp [List.filterM, List.filterAuxM, broke_lineBytes, hl, Except.map, bind, Except.bind, pure, Except.pure]
  unfold State.lookup
  simp only [hd, broke_stock, List.filter_cons, List.filter_nil, show (brokeLine d).digest = d from rfl, decide_true, if_true, hm, bind,
    Except.bind]
  rfl

theorem broke_range (d : BitVec 120) (l : StockLine)
    (hl : ((broke d).stepCount 0 (brokeLine d) true).stockLine 0 ((1 : Byte) ++ d) = some l) : l.range = (0x3C000, 256) := by
  have hs : (((broke d).stepCount 0 (brokeLine d) true).ctx 0).stock = ([brokeLine d].map fun m =>
      if m = brokeLine d then { m with count := countStep true m.count } else m).filter fun m => m.count != 0 := rfl
  unfold State.stockLine at hl
  split at hl
  · cases hl
  · have hm := List.mem_of_find?_eq_some hl
    rw [hs] at hm
    obtain ⟨m, h1, rfl⟩ := List.mem_map.1 (List.mem_filter.1 hm).1
    rw [List.mem_singleton.1 h1, if_pos rfl]
    rfl

theorem broke_lookupBytes (d : BitVec 120) (line : List Byte) (hd : stockDigest 0 line = d) :
    (broke d).lookupBytes ((broke d).stepCount 0 (brokeLine d) true) 0 line (some ((1 : Byte) ++ d)) = [(0x3C000, 256)] := by
  have hr := broke_range d
  simp only [State.lookupBytes, hd, broke_stock, List.filter_cons, List.filter_nil, show (brokeLine d).digest = d from rfl, decide_true,
    if_true, List.map, Option.bind_some]
  generalize State.stockLine ((broke d).stepCount 0 (brokeLine d) true) 0 ((1 : Byte) ++ d) = r at hr ⊢
  cases r with
  | none => rfl
  | some l => simp [hr l rfl, Option.filter, show (brokeLine d).range = (0x3C000, 256) from rfl]

/-- WaitsEnd: a lookup whose requests a budget holds. -/
theorem witness_lookupHeld : ∃ (s t : State) (line : List Byte) (n : Option Name), s.lookup 0 line = .ok (t, n)
    ∧ s.heldBack (charged 1 (t, []) (s.lookupBytes t 0 line n)).1 = true := by
  generalize hl : List.replicate 256 (0 : Byte) = line
  generalize hd : stockDigest 0 line = d
  exact ⟨broke d, _, line, _, broke_lookup d line hl.symm hd, by rw [broke_lookupBytes d line hd]; exact broke_held d⟩
end Sys2Proof.Tests
end

section
/-! PROOF. The switch between parked lane sets, bit by bit (spec 01 R24). -/

namespace Sys2Proof.Machine

/-- A set of one lane holds that lane, where the mask has a place for it. -/
@[simp] theorem getLsbD_oneLane (j i : Nat) : (oneLane j).getLsbD i = (decide (i < 64) && decide (j = i)) := by
  rw [oneLane, BitVec.getLsbD_ofNat, Nat.testBit_two_pow]

/-- The lanes below a width for which a test holds. -/
theorem getLsbD_maskOf {w : Nat} (hw : w ≤ 64) (f : Nat → Bool) (i : Nat) :
    (maskOf w f).getLsbD i = (decide (i < w) && f i) := by
  induction w with
  | zero => simp [maskOf]
  | succ w ih =>
    have hlast : maskOf (w + 1) f = if f w then maskOf w f ||| oneLane w else maskOf w f := by
      simp [maskOf, List.range_succ, List.foldl_append]
    have hstep : (maskOf (w + 1) f).getLsbD i = ((decide (i < w) && f i) || (f w && decide (w = i))) := by
      rw [hlast, ← ih (by omega)]
      cases f w
      · simp
      · rw [if_pos rfl, BitVec.getLsbD_or, getLsbD_oneLane, Bool.true_and]
        by_cases hi : w = i
        · simp [hi, show i < 64 by omega]
        · simp [hi]
    rw [hstep]
    by_cases hi : i = w
    · simp [hi]
    · simp [Ne.symm hi, show i < w + 1 ↔ i < w by omega]

/-- The lanes of one set that are not in another. -/
theorem getLsbD_and_not (a b : Mask) (i : Nat) : (a &&& ~~~b).getLsbD i = (a.getLsbD i && !b.getLsbD i) := by
  rw [BitVec.getLsbD_and, BitVec.getLsbD_not]
  cases ha : a.getLsbD i
  · rfl
  · rw [decide_eq_true (BitVec.lt_of_getLsbD ha), Bool.true_and]

/-! The recorded PCs. -/

@[simp] theorem length_setPCs (pcs : List W64) (m : Mask) (p : W64) : (setPCs pcs m p).length = pcs.length := by
  simp [setPCs]

theorem setPCs_getElem? {pcs : List W64} {i : Nat} (hi : i < pcs.length) (m : Mask) (p : W64) :
    (setPCs pcs m p)[i]? = some (if m.getLsbD i then p else (pcs[i]?).getD 0) := by
  simp [setPCs, hi]

theorem getLsbD_lanesAt {pcs : List W64} (hw : pcs.length ≤ 64) (m : Mask) (q : W64) (i : Nat) :
    (lanesAt pcs m q).getLsbD i = (decide (i < pcs.length) && (m.getLsbD i && decide ((pcs[i]?).getD 0 = q))) :=
  getLsbD_maskOf hw _ i

/-- The recorded PCs of a set of lanes, the numbers that `lowestPC` takes the least of. -/
def recordedPCs (pcs : List W64) (m : Mask) : List Nat :=
  (((List.range pcs.length).zip pcs).filter fun x => m.getLsbD x.1).map fun x => x.2.toNat

theorem lowestPC_eq (pcs : List W64) (m : Mask) : lowestPC pcs m = BitVec.ofNat 64 ((recordedPCs pcs m).min?.getD 0) := rfl

theorem mem_recordedPCs {pcs : List W64} {m : Mask} {n : Nat} :
    n ∈ recordedPCs pcs m ↔ ∃ i < pcs.length, m.getLsbD i = true ∧ ((pcs[i]?).getD 0).toNat = n := by
  simp only [recordedPCs, List.mem_map, List.mem_filter, Prod.exists]
  constructor
  · rintro ⟨a, q, ⟨hz, hm⟩, rfl⟩
    obtain ⟨i, hz⟩ := List.mem_iff_getElem?.1 hz
    obtain ⟨hr, hq⟩ := List.getElem?_zip_eq_some.1 hz
    obtain ⟨hi, rfl⟩ := List.getElem?_eq_some_iff.1 hr
    rw [List.length_range] at hi
    exact ⟨i, hi, by simpa using hm, by simp [hq]⟩
  · rintro ⟨i, hi, hm, rfl⟩
    have hz : ((List.range pcs.length).zip pcs)[i]? = some (i, pcs[i]) :=
      List.getElem?_zip_eq_some.2 ⟨by simp [hi], by simp [hi]⟩
    exact ⟨i, pcs[i], ⟨List.mem_iff_getElem?.2 ⟨i, hz⟩, hm⟩, by simp [hi]⟩

/-- The lowest recorded PC of a set with a lane is a lane's of the set, and no lane of the set has a lower one (R24 step 4). -/
theorem lowestPC_least {pcs : List W64} {m : Mask} {k : Nat} (hk : k < pcs.length) (hm : m.getLsbD k = true) :
    (∃ i < pcs.length, m.getLsbD i = true ∧ lowestPC pcs m = (pcs[i]?).getD 0)
    ∧ ∀ i < pcs.length, m.getLsbD i = true → (lowestPC pcs m).toNat ≤ ((pcs[i]?).getD 0).toNat := by
  have hne : recordedPCs pcs m ≠ [] := List.ne_nil_of_mem (mem_recordedPCs.2 ⟨k, hk, hm, rfl⟩)
  obtain ⟨n, hn⟩ := Option.isSome_iff_exists.1 (List.isSome_min?_iff.2 hne)
  obtain ⟨hmem, hle⟩ := List.min?_eq_some_iff.1 hn
  obtain ⟨i, hi, him, rfl⟩ := mem_recordedPCs.1 hmem
  have hlow : lowestPC pcs m = (pcs[i]?).getD 0 := by simp [lowestPC_eq, hn]
  exact ⟨⟨i, hi, him, hlow⟩, fun j hj hjm => hlow ▸ hle _ (mem_recordedPCs.2 ⟨j, hj, hjm, rfl⟩)⟩

/-! The sets that a switch forms. -/

/-- The candidates: the parked lanes of the set but the just-parked ones, which are the candidates where none remains (R24 step 2). -/
def Group.switchCandidates (g : Group) (c : Mask) : Mask :=
  let others := c &&& g.parked &&& ~~~g.running
  if others = 0 then g.running else others

/-- The candidates that are owed a turn; all of them where none is (R24 step 3). -/
def Group.switchOwed (g : Group) (c : Mask) : Mask :=
  let cand := g.switchCandidates c
  let owed := cand &&& ~~~(g.served ||| g.running)
  if owed = 0 then cand else owed

/-- The served bits before the chosen lanes are unparked (R24 steps 1 and 3). -/
def Group.switchServed (g : Group) (c : Mask) : Mask :=
  let srv := g.served ||| g.running
  if g.switchCandidates c &&& ~~~srv = 0 then srv &&& ~~~g.switchCandidates c else srv

/-- The PC that a switch chooses (R24 step 4). -/
def Group.switchPC (g : Group) (p : W64) (c : Mask) : W64 :=
  lowestPC (setPCs g.lanePC g.running p) (g.switchOwed c)

/-- The lanes that a switch unparks (R24 step 5). -/
def Group.switchUp (g : Group) (p : W64) (c : Mask) : Mask :=
  lanesAt (setPCs g.lanePC g.running p) (g.switchCandidates c) (g.switchPC p c)

/-- The stored exec bits once the running lanes are parked (R24 step 1). -/
def Group.switchStored (g : Group) : Mask := (g.stored &&& ~~~g.running) ||| (g.exec &&& g.running)

/-- The candidates with served bit 0 after step 3 are those owed a turn. -/
theorem switchOwed_eq (g : Group) (c : Mask) : g.switchCandidates c &&& ~~~g.switchServed c = g.switchOwed c := by
  unfold Group.switchServed Group.switchOwed
  by_cases h : g.switchCandidates c &&& ~~~(g.served ||| g.running) = 0
  · simp only [if_pos h]
    ext i hi
    cases hc : (g.switchCandidates c)[i] <;> simp [hc]
  · simp only [if_neg h]

/-- The switch in terms of these sets. -/
theorem Group.switch_eq (g : Group) (p : W64) (c : Mask) :
    g.switch p c = { g with
      lanePC := setPCs g.lanePC g.running p, parked := (g.parked ||| g.running) &&& ~~~g.switchUp p c,
      stored := g.switchStored &&& ~~~g.switchUp p c, served := g.switchServed c &&& ~~~g.switchUp p c,
      exec := g.switchStored &&& g.switchUp p c, pc := g.switchPC p c, yc := 0 } := by
  unfold Group.switchUp Group.switchPC
  rw [← switchOwed_eq]
  rfl

theorem getLsbD_switchStored (g : Group) (i : Nat) :
    g.switchStored.getLsbD i = if g.running.getLsbD i then g.exec.getLsbD i else g.stored.getLsbD i := by
  rw [Group.switchStored, BitVec.getLsbD_or, getLsbD_and_not, BitVec.getLsbD_and]
  cases g.running.getLsbD i <;> simp

theorem getLsbD_switchOwed (g : Group) (c : Mask) (i : Nat) :
    (g.switchOwed c).getLsbD i = ((g.switchCandidates c).getLsbD i && (!(g.served ||| g.running).getLsbD i
      || decide (g.switchCandidates c &&& ~~~(g.served ||| g.running) = 0))) := by
  unfold Group.switchOwed
  by_cases h : g.switchCandidates c &&& ~~~(g.served ||| g.running) = 0
  · rw [if_pos h, decide_eq_true h, Bool.or_true, Bool.and_true]
  · rw [if_neg h, decide_eq_false h, Bool.or_false, getLsbD_and_not]

theorem getLsbD_switchServed (g : Group) (c : Mask) (i : Nat) :
    (g.switchServed c).getLsbD i = ((g.served ||| g.running).getLsbD i
      && !((g.switchCandidates c).getLsbD i && decide (g.switchCandidates c &&& ~~~(g.served ||| g.running) = 0))) := by
  unfold Group.switchServed
  by_cases h : g.switchCandidates c &&& ~~~(g.served ||| g.running) = 0
  · rw [if_pos h, decide_eq_true h, Bool.and_true, getLsbD_and_not]
  · rw [if_neg h, decide_eq_false h, Bool.and_false, Bool.not_false, Bool.and_true]

/-- A lane that a switch unparks is a candidate whose recorded PC is the chosen one. -/
theorem getLsbD_switchUp {g : Group} (hw : g.lanePC.length ≤ 64) (p : W64) (c : Mask) {i : Nat} (hi : i < g.lanePC.length) :
    (g.switchUp p c).getLsbD i = ((g.switchCandidates c).getLsbD i
      && decide ((if g.running.getLsbD i then p else (g.lanePC[i]?).getD 0) = g.switchPC p c)) := by
  rw [Group.switchUp, getLsbD_lanesAt (by simpa using hw), setPCs_getElem? hi]
  simp [hi]

/-- The chosen PC is the lowest recorded PC of the lanes owed a turn. -/
theorem switchPC_least {g : Group} (p : W64) (c : Mask) {k : Nat} (hk : k < g.lanePC.length)
    (ho : (g.switchOwed c).getLsbD k = true) :
    let pcs (i : Nat) : W64 := if g.running.getLsbD i then p else (g.lanePC[i]?).getD 0
    (∃ i < g.lanePC.length, (g.switchOwed c).getLsbD i = true ∧ g.switchPC p c = pcs i)
    ∧ ∀ i < g.lanePC.length, (g.switchOwed c).getLsbD i = true → (g.switchPC p c).toNat ≤ (pcs i).toNat := by
  intro pcs
  have hpc (i : Nat) (hi : i < g.lanePC.length) : ((setPCs g.lanePC g.running p)[i]?).getD 0 = pcs i := by
    rw [setPCs_getElem? hi, Option.getD_some]
  obtain ⟨⟨i, hi, him, heq⟩, hle⟩ := lowestPC_least (pcs := setPCs g.lanePC g.running p) (by simpa using hk) ho
  rw [length_setPCs] at hi
  refine ⟨⟨i, hi, him, heq.trans (hpc i hi)⟩, fun j hj hjm => ?_⟩
  rw [← hpc j hj]
  exact hle j (by simpa using hj) hjm

/-! The fields after a switch, the masks at one lane. -/

section
variable (g : Group) (p : W64) (c : Mask) (i : Nat)

@[simp] theorem Group.switch_pc : (g.switch p c).pc = g.switchPC p c := by rw [Group.switch_eq]

@[simp] theorem Group.switch_yc : (g.switch p c).yc = 0 := by rw [Group.switch_eq]

@[simp] theorem Group.switch_lanePC : (g.switch p c).lanePC = setPCs g.lanePC g.running p := by rw [Group.switch_eq]

theorem getLsbD_switch_parked : (g.switch p c).parked.getLsbD i
    = ((g.parked.getLsbD i || g.running.getLsbD i) && !(g.switchUp p c).getLsbD i) := by
  rw [Group.switch_eq, getLsbD_and_not, BitVec.getLsbD_or]

theorem getLsbD_switch_exec : (g.switch p c).exec.getLsbD i = ((g.switchUp p c).getLsbD i
    && (if g.running.getLsbD i then g.exec.getLsbD i else g.stored.getLsbD i)) := by
  rw [Group.switch_eq, BitVec.getLsbD_and, getLsbD_switchStored, Bool.and_comm]

theorem getLsbD_switch_stored : (g.switch p c).stored.getLsbD i
    = ((if g.running.getLsbD i then g.exec.getLsbD i else g.stored.getLsbD i) && !(g.switchUp p c).getLsbD i) := by
  rw [Group.switch_eq, getLsbD_and_not, getLsbD_switchStored]

theorem getLsbD_switch_served : (g.switch p c).served.getLsbD i
    = ((g.switchServed c).getLsbD i && !(g.switchUp p c).getLsbD i) := by
  rw [Group.switch_eq, getLsbD_and_not]

end

end Sys2Proof.Machine

namespace Sys2Proof.Claims

open Sys2Proof.Machine

/-- Settles O7: the chosen PC is the lowest of those owed a turn, and each field of the switch is read at one lane. -/
theorem switch : Obligations.Switch := by
  intro g p c hw hlen h run pcs others cand srv owed ⟨k, hk⟩
  have howed (i : Nat) : owed i = true ↔ i < g.lanePC.length ∧ (g.switchOwed c).getLsbD i = true := by
    rw [hlen, getLsbD_switchOwed]
    simp only [owed, Bool.and_assoc, Bool.and_eq_true (decide _), decide_eq_true_eq]
    rfl
  have hpc : h.pc = g.switchPC p c := Group.switch_pc g p c
  obtain ⟨hk, hko⟩ := (howed k).1 hk
  obtain ⟨⟨i, hi, hio, hpci⟩, hleast⟩ := switchPC_least p c hk hko
  refine ⟨⟨i, (howed i).2 ⟨hi, hio⟩, hpc.trans hpci⟩, fun j hj => ?_, Group.switch_yc g p c, fun j hj => ?_⟩
  · obtain ⟨hj, hjo⟩ := (howed j).1 hj
    exact hpc ▸ hleast j hj hjo
  · intro up
    rw [← hlen] at hj
    have hup : (g.switchUp p c).getLsbD j = up := by
      rw [getLsbD_switchUp (hlen ▸ hw) p c hj, ← hpc]
      rfl
    have hparked : h.parked.getLsbD j = ((g.parked.getLsbD j || run.getLsbD j) && !up) :=
      hup ▸ getLsbD_switch_parked g p c j
    refine ⟨(congrArg (·[j]?) (Group.switch_lanePC g p c)).trans (setPCs_getElem? hj _ _), hparked,
      hup ▸ getLsbD_switch_exec g p c j, fun hstays => ?_, fun hchosen => ?_⟩
    · have hdown : (g.switchUp p c).getLsbD j = false := by
        rw [hparked, Bool.and_eq_true, Bool.not_eq_true'] at hstays
        exact hup.trans hstays.2
      constructor
      · rw [getLsbD_switch_stored g p c j, hdown, Bool.not_false, Bool.and_true]
      · rw [getLsbD_switch_served g p c j, hdown, Bool.not_false, Bool.and_true, getLsbD_switchServed]
        rfl
    · rw [getLsbD_switch_served g p c j, hup, hchosen, Bool.not_true, Bool.and_false]

end Sys2Proof.Claims
end

section
/-! PROOF. The scalar bit fields (spec 08 R204): the model's patterns as machine words of the type's width. -/

namespace Sys2Proof.Machine

theorem fieldPos_eq (f : W32) : fieldPos f = f.toNat % 64 := by
  simp [fieldPos, BitVec.extractLsb'_toNat]

theorem fieldLen_eq (f : W32) : fieldLen f = min (f.toNat / 256 % 128) 64 := by
  simp [fieldLen, BitVec.extractLsb'_toNat, Nat.shiftRight_eq_div_pow]

/-- Wrapping to n bits is the number of an n-bit word. -/
theorem wrapN_eq_toNat (v : Int) (n : Nat) : wrapN v n = (BitVec.ofInt n v).toNat := by
  simp [wrapN, BitVec.toNat_ofInt]

/-- The sign of a pattern that fits its length: one of length 0 has none. -/
theorem sextN_of_lt {y len : Nat} (hy : y < 2 ^ len) :
    sextN y len = if 0 < len ∧ 2 ^ (len - 1) ≤ y then (y : Int) - 2 ^ len else y := by
  simp [sextN, Nat.mod_eq_of_lt hy, Nat.pos_iff_ne_zero]

/-- An extracted field, of a signed type with its sign, as a word of n bits. -/
theorem fieldExtract_eq_toNat (ty n a : Nat) (f : W32) :
    fieldExtract ty n a f =
      (let y : Nat := a % 2 ^ n / 2 ^ fieldPos f % 2 ^ fieldLen f
       BitVec.ofInt n (if tySigned ty ∧ 0 < fieldLen f ∧ 2 ^ (fieldLen f - 1) ≤ y then (y : Int) - 2 ^ fieldLen f else y)).toNat := by
  have hy : a % 2 ^ n / 2 ^ fieldPos f % 2 ^ fieldLen f < 2 ^ fieldLen f := Nat.mod_lt _ (Nat.two_pow_pos _)
  rw [fieldExtract, wrapN_eq_toNat, sextN_of_lt hy]
  cases tySigned ty <;> simp

/-- The bits of a outside a mask: as numbers, of which the mask's complement keeps the low n bits, and as words of n bits. -/
theorem and_complement_eq_toNat {n : Nat} (a : Nat) (m : BitVec n) :
    a &&& ((2 ^ n - 1) ^^^ m.toNat) = (BitVec.ofNat n a &&& ~~~m).toNat := by
  have hm : (~~~m).toNat = (2 ^ n - 1) ^^^ m.toNat := by
    rw [BitVec.not_def, BitVec.toNat_xor, BitVec.toNat_allOnes]
  rw [BitVec.toNat_and, BitVec.toNat_ofNat, ← hm, ← Nat.mod_eq_of_lt (Nat.and_lt_two_pow a (~~~m).isLt),
    Nat.and_mod_two_pow, Nat.mod_eq_of_lt (~~~m).isLt]

/-- An inserted field as a word of n bits: b at the field's position under its mask, a elsewhere. -/
theorem fieldInsert_eq_toNat (n a b : Nat) (f : W32) :
    fieldInsert n a b f =
      (let m : BitVec n := BitVec.ofNat n ((2 ^ fieldLen f - 1) * 2 ^ fieldPos f)
       (BitVec.ofNat n a &&& ~~~m) ||| (BitVec.ofNat n (b * 2 ^ fieldPos f) &&& m)).toNat := by
  rw [BitVec.toNat_or, ← and_complement_eq_toNat, BitVec.toNat_and, BitVec.toNat_ofNat, BitVec.toNat_ofNat]
  rfl

end Sys2Proof.Machine

namespace Sys2Proof.Claims

open Sys2Proof.Machine

/-- Settles O10: each form delivers one number, and that number is the claimed word of the type's width. -/
theorem bitFields : Obligations.BitFields := by
  intro e s g hg n pos len
  constructor
  · rintro x rfl hclear
    refine issue_deliver hg hclear fun _ => ?_
    rw [fieldExtract_eq_toNat, BitVec.ofNat_toNat, fieldPos_eq, fieldLen_eq]
    rfl
  · rintro x rfl hclear
    refine issue_deliver hg hclear fun _ => ?_
    rw [fieldInsert_eq_toNat, BitVec.ofNat_toNat, fieldPos_eq, fieldLen_eq]
    rfl

end Sys2Proof.Claims
end

section
/-! PROOF. The predicate forms (spec 08 R207), and what a result leaves in a destination predicate (spec 01 R17). -/

namespace Sys2Proof.Machine

theorem Group.setP_preds_ne (g : Group) {k j : Nat} (h : j ≠ k) (lanes vals : Mask) :
    (g.setP k lanes vals).preds[j]? = g.preds[j]? := by
  simp [Group.setP, Ne.symm h]

/-- A predicate written takes the values in the lanes of the mask and keeps its own elsewhere. -/
theorem Group.p_setP_same {g : Group} {k : Nat} (hk : k < g.preds.length) (lanes vals : Mask) (i : Nat) :
    (g.setP k lanes vals).p k i = if lanes.getLsbD i then vals.getLsbD i else g.p k i := by
  have hnew : (g.setP k lanes vals).p k i = ((g.preds[k] &&& ~~~lanes) ||| (vals &&& lanes)).getLsbD i := by
    simp [Group.setP, Group.p, hk]
  have hold : g.p k i = g.preds[k].getLsbD i := by simp [Group.p, hk]
  rw [hnew, hold, BitVec.getLsbD_or, getLsbD_and_not, BitVec.getLsbD_and]
  cases lanes.getLsbD i <;> simp

/-- The lanes that a form writes: every active lane with U = 1, else the active lanes where its guard holds. -/
theorem Iss.getLsbD_writers {x : Iss} (hw : x.g.width ≤ 64) {i : Nat} (hi : i < x.g.width) :
    x.writers.getLsbD i = if x.e.u then x.g.exec.getLsbD i else x.g.exec.getLsbD i && x.guard i := by
  unfold Iss.writers Iss.qual
  cases x.e.u
  · simpa [hi] using getLsbD_maskOf hw (fun i => x.g.exec.getLsbD i && x.guard i) i
  · simp

/-- A result delivered to a predicate: of each lane's value, or of the value at the lane of R17, the lowest bit. -/
theorem Iss.deliver_pred {x : Iss} {k : Fin 48} (hd : x.e.dst = .p k) (hn : x.e.nw = false) (wide : Bool) (val : Nat → W64) :
    (x.deliver wide val).1
      = x.g.setP k x.writers (maskOf x.g.width fun i => (val (if x.e.u then x.ul else i)).getLsbD 0) := by
  simp [Iss.deliver, hd, hn]

/-- The group of a form that completes: it goes on, and its issue is counted. -/
theorem Iss.completed_group {x : Iss} {s : State} {g : Group} (h : s.groups[x.gi]? = some g) (out : LatchVal) :
    (x.completed s out).groups[x.gi]? = some ((g.advance x out s.cycle).count (x.g.counting 2) 2 1) := by
  simp [Iss.completed, State.issuedBy, State.noteIssued, State.countIssue, h]

/-- What a form that delivers a result leaves in its group's predicates. -/
theorem Iss.delivered_preds {x : Iss} {s : State} (h : s.groups[x.gi]? = some x.g) (wide : Bool) (val : Nat → W64) :
    ∃ t, (x.delivered s wide val).groups[x.gi]? = some t ∧ t.preds = (x.deliver wide val).1.preds := by
  have hset : (s.setGroup x.gi (x.deliver wide val).1).groups[x.gi]? = some (x.deliver wide val).1 := by
    obtain ⟨hlt, -⟩ := List.getElem?_eq_some_iff.1 h
    rw [State.setGroup_groups, List.getElem?_set_self hlt]
  exact ⟨_, Iss.completed_group hset _, rfl⟩

theorem Group.p_congr {g h : Group} (hp : g.preds = h.preds) (k i : Nat) : g.p k i = h.p k i := by
  rw [Group.p, Group.p, hp]

end Sys2Proof.Machine

namespace Sys2Proof.Claims

open Sys2Proof.Machine

/-- A form whose meaning is a predicate effect completes with it. -/
theorem does_predicate {mk : Enc → Instr} {opc : Nat} {f : Iss → Nat → Bool}
    (harm : ∀ e s, exec (mk e) s = issue opc 0 e s (predEff f)) : Does mk opc 0 (predicate f) :=
  fun e s _ hg hclear => (harm e s).trans (issue_deliver (wide := fun _ => false) hg hclear fun _ => rfl)

/-- The destination of a predicate form afterwards; no other predicate changes. -/
theorem predicate_written {x : Iss} {s : State} (f : Iss → Nat → Bool) {k : Fin 48} (hg : s.groups[x.gi]? = some x.g)
    (hw : x.g.width ≤ 64) (hlen : x.g.preds.length = 48) (hd : x.e.dst = .p k) (hn : x.e.nw = false) :
    ∃ h, (predicate f x s).groups[x.gi]? = some h ∧ (∀ j, j ≠ k.val → h.preds[j]? = x.g.preds[j]?) ∧
      ∀ i < x.g.width, h.p k i = if x.writers.getLsbD i then f x (if x.e.u then x.ul else i) else x.g.p k i := by
  obtain ⟨h, hh, hp⟩ := Iss.delivered_preds hg false fun i => if f x i then 1 else 0
  rw [Iss.deliver_pred hd hn] at hp
  refine ⟨h, hh, fun j hj => ?_, fun i hi => ?_⟩
  · rw [hp, Group.setP_preds_ne _ hj]
  · have hbit (b : Bool) : (if b then 1 else 0 : W64).getLsbD 0 = b := by cases b <;> rfl
    rw [Group.p_congr hp, Group.p_setP_same (k.isLt.trans_eq hlen.symm), getLsbD_maskOf hw, hbit, decide_eq_true hi, Bool.true_and]

/-- Settles O11: the five forms complete as predicate effects, and a predicate effect writes the lanes of `Iss.writers`. -/
theorem predicates : Obligations.Predicates := by
  refine ⟨does_predicate fun _ _ => rfl, does_predicate fun _ _ => rfl, does_predicate fun _ _ => rfl,
    does_predicate fun _ _ => rfl, does_predicate fun _ _ => rfl, ?_⟩
  intro x s f k hg hw hlen hd hn
  obtain ⟨h, hh, hother, hself⟩ := predicate_written f hg hw hlen hd hn
  refine ⟨h, hh, hother, fun i hi => ?_⟩
  rw [hself i hi, Iss.getLsbD_writers hw hi]
  cases x.e.u <;> simp

end Sys2Proof.Claims
end
